-- ==== Sys2Proof/Word.lean ====
section
/-! DEFINITION. The value types of the block (00_scope.md R9, R10): every value is unsigned. -/

namespace Sys2Proof

/-- 8 bits: a received byte, a pitch, a check byte, a response (R9). -/
abbrev Byte := BitVec 8

/-- 4 bits: the `event` and `param` halves of a header byte and the node ID (R9, R36). -/
abbrev Nibble := BitVec 4

/-- 16 bits: `declared_length`, `bytes_consumed`, a duration, the cursor, the tone timer (R9). -/
abbrev Half := BitVec 16

/-- 7 bits: a playable pitch, the index 0..127 of the two pitch ROMs (R97). -/
abbrev Pitch := BitVec 7

end Sys2Proof
end

