-- ==== Sys2Proof/Config.lean ====
section
/-! DEFINITION. The parameters of 00_scope.md R8. The fixed ones have the value R8 gives; the OPEN ones are opaque
constants: nothing in Lean can evaluate them, so whatever is proved holds for every choice of them. -/

namespace Sys2Proof.Config

/-- `MAX_NOTES`, the Song Buffer's capacity in entries: 600 (R8, D34). -/
def maxNotes : Nat := 600

/-- `COORDINATOR_ID`: 0 (R8, R198). -/
def coordinatorId : Nibble := 0

/-- `NV_NODEID_ADDR`, the address of the node ID in the non-volatile store: 0 (R8, R67). -/
def nvNodeIdAddr : Byte := 0

/-- `BUZZ_RESET`, the buzzer's level at reset: 0 (R8, D19). -/
def buzzReset : Bool := false

/-- `TH_ROM[0..127]`, OPEN: the high byte of the tone timer's reload (R8, R48, R65; log entry 4). -/
opaque thRom : Pitch → Byte

/-- `TL_ROM[0..127]`, OPEN: the low byte of the tone timer's reload (R8, R48, R65; log entry 4). -/
opaque tlRom : Pitch → Byte

/-- `UNIT_CYCLES - 1`, any natural number (log entry 4). -/
opaque unitCyclesLessOne : Nat

/-- `UNIT_CYCLES`, OPEN: clock cycles in one duration unit, an integer of at least 1 (R8, D16). -/
def unitCycles : Nat := unitCyclesLessOne + 1

/-- `TIMER_DIV - 1`, any natural number (log entry 4). -/
opaque timerDivLessOne : Nat

/-- `TIMER_DIV`, OPEN: clock cycles in one tick of the tone timer, an integer of at least 1 (R8, D17). -/
def timerDiv : Nat := timerDivLessOne + 1

/-- `NV_BOOT_VALUE`, OPEN: the byte read from the non-volatile store at the reset that leads to `State.reset`
(R8, R272; log entry 4). A later reset cycle samples it anew, from that cycle's inputs. -/
opaque nvBootValue : Byte

/-- `RX_SEES_OWN_TX`, OPEN: whether the block's own transmitted bytes come back on its receive input (R8, R230).
"The block's rules do not depend on it": only the schedules a bus can supply do (`Safety.EchoAdmissible`). -/
opaque rxSeesOwnTx : Bool

end Sys2Proof.Config
end

