-- ==== Sys2Proof/Syntax.lean ====
section
/-! DEFINITION. What the block decodes: the 16 header events of 30_encoding.md R91, the note codes of R97, and
the data-load frame of R92. -/

namespace Sys2Proof

/-- One instruction: a header byte by its event (R91) or a note entry by its pitch (R97). Every mnemonic of
spec/opcode_table.json is one constructor; the table's six RSVP rows are six masks of the one instruction `rsvp`
(R2). A header event carries its `param` nibble whatever its use, since R121 records it in `fr_param`. -/
inductive Instr where
  /-- NOP, event 0 (R151). -/
  | nop (param : Nibble)
  /-- LOAD, event 1, the load-start header (R122). -/
  | load (target : Nibble)
  /-- RSV2, event 2, reserved (R152). -/
  | rsv2 (param : Nibble)
  /-- START, event 3, broadcast start (R153). -/
  | start (param : Nibble)
  /-- STOP, event 4, broadcast stop (R154). -/
  | stop (param : Nibble)
  /-- STARTN, event 5, unicast start (R155). -/
  | startn (target : Nibble)
  /-- STOPN, event 6, unicast stop (R156). -/
  | stopn (target : Nibble)
  /-- RSV7, event 7, reserved (R157). -/
  | rsv7 (param : Nibble)
  /-- SYNCACK, event 8, sync acknowledgement (R158). -/
  | syncack (param : Nibble)
  /-- RSV9, event 9 (R159). -/
  | rsv9 (param : Nibble)
  /-- RSVA, event 0xA (R160). -/
  | rsva (param : Nibble)
  /-- RSVB, event 0xB (R161). -/
  | rsvb (param : Nibble)
  /-- RSVC, event 0xC (R162). -/
  | rsvc (param : Nibble)
  /-- RSVD, event 0xD (R163). -/
  | rsvd (param : Nibble)
  /-- HOSTE, event 0xE, host-bound traffic (R164). -/
  | hoste (param : Nibble)
  /-- HOSTF, event 0xF, host-bound traffic (R165). -/
  | hostf (param : Nibble)
  /-- TONE, pitch 0..127 (R182). -/
  | tone (pitch : Pitch) (duration : Half)
  /-- REST, pitch 255 (R184). -/
  | rest (duration : Half)
  /-- END, pitch 254, end-of-song; the duration is ignored (R186). -/
  | endSong (duration : Half)
  /-- SYNC, pitch 253, sync barrier; the duration is ignored (R187). -/
  | sync (duration : Half)
  /-- RSVP, pitch 128..252, undefined by the source: a model fault (R188). -/
  | rsvp (pitch : Byte) (duration : Half)
  deriving DecidableEq, Repr

/-- The mnemonic of spec/opcode_table.json. -/
def Instr.mnemonic : Instr → String
  | .nop _ => "NOP"
  | .load _ => "LOAD"
  | .rsv2 _ => "RSV2"
  | .start _ => "START"
  | .stop _ => "STOP"
  | .startn _ => "STARTN"
  | .stopn _ => "STOPN"
  | .rsv7 _ => "RSV7"
  | .syncack _ => "SYNCACK"
  | .rsv9 _ => "RSV9"
  | .rsva _ => "RSVA"
  | .rsvb _ => "RSVB"
  | .rsvc _ => "RSVC"
  | .rsvd _ => "RSVD"
  | .hoste _ => "HOSTE"
  | .hostf _ => "HOSTF"
  | .tone _ _ => "TONE"
  | .rest _ => "REST"
  | .endSong _ => "END"
  | .sync _ => "SYNC"
  | .rsvp _ _ => "RSVP"

/-- A Note Entry, `pitch: byte, duration: u16` (20_memory.md R61, 30_encoding.md R96). -/
structure NoteEntry where
  pitch : Byte
  duration : Half
  deriving DecidableEq, Repr

/-- A data-load frame (R92): its target node ID, its payload bytes and its check byte. The declared length is the
number of payload bytes. -/
structure LoadFrame where
  target : Nibble
  payload : List Byte
  check : Byte
  deriving DecidableEq, Repr

end Sys2Proof
end

