-- ==== Sys2Proof/WellFormed.lean ====
section
/-! DEFINITION. Which terms stand for something the bus or the Song Buffer can hold. -/

namespace Sys2Proof

/-- The pitches of `rsvp`: 128..252 (R97). Every other operand has exactly the width of its field. -/
def Instr.wellFormed : Instr → Bool
  | .rsvp p _ => decide (128 ≤ p.toNat) && decide (p.toNat ≤ 252)
  | .nop _ | .load _ | .rsv2 _ | .start _ | .stop _ | .startn _ | .stopn _ | .rsv7 _ | .syncack _
  | .rsv9 _ | .rsva _ | .rsvb _ | .rsvc _ | .rsvd _ | .hoste _ | .hostf _
  | .tone _ _ | .rest _ | .endSong _ | .sync _ => true

/-- A frame's declared length has 16 bits: 0..65535 payload bytes (R92). -/
def LoadFrame.wellFormed (f : LoadFrame) : Bool := decide (f.payload.length < 65536)

end Sys2Proof
end

