-- ==== Sys2Proof/Decode.lean ====
section
/-! DEFINITION. Decoding and encoding of header bytes (30_encoding.md R90, R91), note entries (R96, R97) and
data-load frames (R92 to R95, R103, R104), with the opcode table of spec/opcode_table.json as rows. -/

namespace Sys2Proof

/-! ## Fields and byte order -/

/-- `event = b[7:4]` (R90). -/
def headerEvent (b : Byte) : Nibble := b.extractLsb' 4 4

/-- `param = b[3:0]` (R90). -/
def headerParam (b : Byte) : Nibble := b.extractLsb' 0 4

/-- The header byte `event:4 bits | param:4 bits` (R90). -/
def headerByte (event param : Nibble) : Byte := event ++ param

/-- `v[15:8]`. -/
def highByte (v : Half) : Byte := v.extractLsb' 8 8

/-- `v[7:0]`. -/
def lowByte (v : Half) : Byte := v.extractLsb' 0 8

/-- The big-endian 16-bit value of two bytes: the first on the bus is the more significant (R68, R69). -/
def bigEndian (hi lo : Byte) : Half := hi ++ lo

/-- The 24 bits of a note entry as the opcode table numbers them: `pitch` is bits 23..16, `duration` 15..0 (R96). -/
def noteWord (pitch : Byte) (duration : Half) : BitVec 24 := pitch ++ duration

/-- Bits 23..16 of a note word. -/
def notePitch (w : BitVec 24) : Byte := w.extractLsb' 16 8

/-- Bits 15..0 of a note word. -/
def noteDuration (w : BitVec 24) : Half := w.extractLsb' 0 16

/-- The entry's 24 bits. -/
def NoteEntry.bits (e : NoteEntry) : BitVec 24 := noteWord e.pitch e.duration

/-- The entry with these 24 bits. -/
def NoteEntry.ofBits (w : BitVec 24) : NoteEntry := ⟨notePitch w, noteDuration w⟩

/-! ## Decoding -/

/-- The opcode map of the header byte (R91). Every byte decodes; only event 15 reaches the last arm. -/
def decodeHeader (b : Byte) : Instr :=
  match (headerEvent b).toNat with
  | 0 => .nop (headerParam b)
  | 1 => .load (headerParam b)
  | 2 => .rsv2 (headerParam b)
  | 3 => .start (headerParam b)
  | 4 => .stop (headerParam b)
  | 5 => .startn (headerParam b)
  | 6 => .stopn (headerParam b)
  | 7 => .rsv7 (headerParam b)
  | 8 => .syncack (headerParam b)
  | 9 => .rsv9 (headerParam b)
  | 10 => .rsva (headerParam b)
  | 11 => .rsvb (headerParam b)
  | 12 => .rsvc (headerParam b)
  | 13 => .rsvd (headerParam b)
  | 14 => .hoste (headerParam b)
  | _ => .hostf (headerParam b)

/-- The opcode map of the pitch byte (R97). Every 24-bit entry decodes; only pitch 255 reaches the last branch. -/
def decodeNote (w : BitVec 24) : Instr :=
  if (notePitch w).toNat ≤ 127 then .tone ((notePitch w).setWidth 7) (noteDuration w)
  else if (notePitch w).toNat ≤ 252 then .rsvp (notePitch w) (noteDuration w)
  else if (notePitch w).toNat = 253 then .sync (noteDuration w)
  else if (notePitch w).toNat = 254 then .endSong (noteDuration w)
  else .rest (noteDuration w)

/-- The two kinds of words the block decodes: a header byte of the bus, a note entry of the Song Buffer
(the head of 30_encoding.md). -/
inductive CodeWord where
  | hdr (b : Byte)
  | note (w : BitVec 24)
  deriving DecidableEq, Repr

/-- The instruction a word stands for. -/
def decode : CodeWord → Instr
  | .hdr b => decodeHeader b
  | .note w => decodeNote w

/-- Which of the two streams a run of bytes is read as: R90 says that a byte is a header exactly by where it stands. -/
inductive ByteStream where
  | headers
  | notes
  deriving DecidableEq, Repr

/-- Why bytes give no instruction. -/
inductive DecodeError where
  /-- There is no byte left. -/
  | noByte
  /-- One or two bytes of a note triple: "a final partial triple encodes nothing" (R94). -/
  | partialTriple
  deriving DecidableEq, Repr

/-- The first instruction of a run of bytes, and the bytes after it: one byte a header (R90), three bytes a note
entry, `pitch, duration high, duration low` (R94). -/
def decodeBytes : ByteStream → List Byte → Except DecodeError (Instr × List Byte)
  | _, [] => .error .noByte
  | .headers, b :: rest => .ok (decodeHeader b, rest)
  | .notes, p :: hi :: lo :: rest => .ok (decodeNote (noteWord p (bigEndian hi lo)), rest)
  | .notes, _ :: _ => .error .partialTriple

/-- The word of `nbits` bits whose value is `w`, where the table has that width: 8 is a header byte, 24 is one whole
note entry, whose bits the table numbers as one word, pitch uppermost. -/
def tableWord (nbits w : Nat) : Option CodeWord :=
  match nbits with
  | 8 => some (.hdr (BitVec.ofNat 8 w))
  | 24 => some (.note (BitVec.ofNat 24 w))
  | _ => none

/-- The instruction the decoder reads from a word as spec/opcode_table.json numbers its bits. -/
def decodeTableWord (nbits w : Nat) : Option Instr := (tableWord nbits w).map decode

/-! ## Encoding -/

/-- The word of an instruction (R90, R91, R96, R97). -/
def encode : Instr → CodeWord
  | .nop n => .hdr (headerByte 0x0 n)
  | .load n => .hdr (headerByte 0x1 n)
  | .rsv2 n => .hdr (headerByte 0x2 n)
  | .start n => .hdr (headerByte 0x3 n)
  | .stop n => .hdr (headerByte 0x4 n)
  | .startn n => .hdr (headerByte 0x5 n)
  | .stopn n => .hdr (headerByte 0x6 n)
  | .rsv7 n => .hdr (headerByte 0x7 n)
  | .syncack n => .hdr (headerByte 0x8 n)
  | .rsv9 n => .hdr (headerByte 0x9 n)
  | .rsva n => .hdr (headerByte 0xA n)
  | .rsvb n => .hdr (headerByte 0xB n)
  | .rsvc n => .hdr (headerByte 0xC n)
  | .rsvd n => .hdr (headerByte 0xD n)
  | .hoste n => .hdr (headerByte 0xE n)
  | .hostf n => .hdr (headerByte 0xF n)
  | .tone p d => .note (noteWord (p.setWidth 8) d)
  | .rsvp p d => .note (noteWord p d)
  | .sync d => .note (noteWord 253 d)
  | .endSong d => .note (noteWord 254 d)
  | .rest d => .note (noteWord 255 d)

/-- A word's bytes in bus order: a note's duration is big-endian (R69, R94). -/
def CodeWord.bytes : CodeWord → List Byte
  | .hdr b => [b]
  | .note w => [notePitch w, highByte (noteDuration w), lowByte (noteDuration w)]

/-- The stream a word belongs to. -/
def CodeWord.stream : CodeWord → ByteStream
  | .hdr _ => .headers
  | .note _ => .notes

/-! ## Data-load frames -/

/-- The exclusive-OR of bytes, 0 of none (R95). -/
def xorAll (bytes : List Byte) : Byte := bytes.foldl (fun x b => x ^^^ b) 0

/-- The declared length `L` of a frame (R92). -/
def LoadFrame.length16 (f : LoadFrame) : Half := BitVec.ofNat 16 f.payload.length

/-- The frame's bytes (R92): header, `length_hi`, `length_lo`, payload, check byte. -/
def LoadFrame.bytes (f : LoadFrame) : List Byte :=
  headerByte 0x1 f.target :: highByte f.length16 :: lowByte f.length16 :: (f.payload ++ [f.check])

/-- An entry's three payload bytes (R94). -/
def NoteEntry.payload (e : NoteEntry) : List Byte := [e.pitch, highByte e.duration, lowByte e.duration]

/-- The pseudo-instruction `LOAD n, [entries...]` with length and check byte filled in (R104). -/
def LoadFrame.ofEntries (target : Nibble) (entries : List NoteEntry) : LoadFrame :=
  ⟨target, entries.flatMap NoteEntry.payload, xorAll (entries.flatMap NoteEntry.payload)⟩

/-- How many bytes a frame has, from its first three bytes alone (R93). -/
def frameLength : List Byte → Option Nat
  | [] => none
  | b :: rest =>
    if headerEvent b = 1 then
      match rest with
      | hi :: lo :: _ => some (4 + (bigEndian hi lo).toNat)
      | _ => none
    else some 1

/-! ## The opcode table -/

/-- A row of spec/opcode_table.json: a word of `width` bits is of the row when its bits under `mask` are `pattern`. -/
structure TableRow where
  mnemonic : String
  width : Nat
  pattern : Nat
  mask : Nat
  deriving DecidableEq, Repr

/-- The HDR rows. -/
def headerRows : List TableRow :=
  [⟨"NOP", 8, 0x00, 0xF0⟩, ⟨"LOAD", 8, 0x10, 0xF0⟩, ⟨"RSV2", 8, 0x20, 0xF0⟩, ⟨"START", 8, 0x30, 0xF0⟩,
   ⟨"STOP", 8, 0x40, 0xF0⟩, ⟨"STARTN", 8, 0x50, 0xF0⟩, ⟨"STOPN", 8, 0x60, 0xF0⟩, ⟨"RSV7", 8, 0x70, 0xF0⟩,
   ⟨"SYNCACK", 8, 0x80, 0xF0⟩, ⟨"RSV9", 8, 0x90, 0xF0⟩, ⟨"RSVA", 8, 0xA0, 0xF0⟩, ⟨"RSVB", 8, 0xB0, 0xF0⟩,
   ⟨"RSVC", 8, 0xC0, 0xF0⟩, ⟨"RSVD", 8, 0xD0, 0xF0⟩, ⟨"HOSTE", 8, 0xE0, 0xF0⟩, ⟨"HOSTF", 8, 0xF0, 0xF0⟩]

/-- The NOTE rows. -/
def noteRows : List TableRow :=
  [⟨"TONE", 24, 0x000000, 0x800000⟩, ⟨"RSVP", 24, 0x800000, 0xC00000⟩, ⟨"RSVP", 24, 0xC00000, 0xE00000⟩,
   ⟨"RSVP", 24, 0xE00000, 0xF00000⟩, ⟨"RSVP", 24, 0xF00000, 0xF80000⟩, ⟨"RSVP", 24, 0xF80000, 0xFC0000⟩,
   ⟨"RSVP", 24, 0xFC0000, 0xFF0000⟩, ⟨"SYNC", 24, 0xFD0000, 0xFF0000⟩, ⟨"END", 24, 0xFE0000, 0xFF0000⟩,
   ⟨"REST", 24, 0xFF0000, 0xFF0000⟩]

/-- The whole table. -/
def opcodeTable : List TableRow := headerRows ++ noteRows

/-- Whether the word of `nbits` bits with value `w` is of the row. -/
def TableRow.covers (r : TableRow) (nbits w : Nat) : Bool := r.width == nbits && (w &&& r.mask) == r.pattern

/-- A word's width. -/
def CodeWord.width : CodeWord → Nat
  | .hdr _ => 8
  | .note _ => 24

/-- A word's bits as one number. -/
def CodeWord.value : CodeWord → Nat
  | .hdr b => b.toNat
  | .note w => w.toNat

/-- The rows of the table that a word is of. -/
def CodeWord.rows (c : CodeWord) : List TableRow := opcodeTable.filter (fun r => r.covers c.width c.value)

end Sys2Proof
end

