-- ==== Sys2Proof/Machine/Boot.lean ====
section
/-! DEFINITION. The boot load of the node ID (10_state.md R36, 70_reset_and_hazards.md R272). -/

namespace Sys2Proof.Machine

/-- The node ID that the byte read from the non-volatile store at reset gives: its low nibble if it is at most 15,
else 0 ("values outside [0,15] on read are treated as corrupt and reset to 0", R272). -/
def bootNodeId (stored : Byte) : Nibble := if stored.toNat ≤ 15 then stored.extractLsb' 0 4 else 0

end Sys2Proof.Machine
end

