-- ==== Sys2Proof/Machine/State.lean ====
section
/-! DEFINITION. The state of the block (10_state.md R20 to R58), as plain data, grouped as R21 groups it, and the
state after reset (R270, R271). -/

namespace Sys2Proof.Machine

/-- `fr_state`, the frame receiver's state (R22). -/
inductive FrameState where
  | idle
  | lenHi
  | lenLo
  | payload
  | check
  deriving DecidableEq, Repr

/-- The Inbound Frame (R22 to R29). -/
structure InboundFrame where
  /-- `fr_state` (R22). -/
  state : FrameState
  /-- `fr_event` (R23). -/
  event : Nibble
  /-- `fr_param` (R23). -/
  param : Nibble
  /-- `fr_len` (R24). -/
  len : Half
  /-- `fr_count` (R25). -/
  count : Half
  /-- `fr_csum` (R26). -/
  csum : Byte
  /-- `fr_match` (R27). -/
  matched : Bool
  /-- `fr_oversize` (R28). -/
  oversize : Bool
  /-- `fr_stage_pitch` (R29). -/
  stagePitch : Byte
  /-- `fr_stage_dhi` (R29). -/
  stageDhi : Byte
  deriving DecidableEq, Repr

/-- The Shared Flags (R30 to R35). -/
structure SharedFlags where
  /-- `isMusicPlaying` (R30). -/
  isMusicPlaying : Bool
  /-- `isWaitingForSync` (R31). -/
  isWaitingForSync : Bool
  /-- `dataReady` (R32). -/
  dataReady : Bool
  /-- `sendResponse` (R33). -/
  sendResponse : Bool
  /-- `responseData` (R34). -/
  responseData : Byte
  /-- `uartBusy` (R35). -/
  uartBusy : Bool
  deriving DecidableEq, Repr

/-- `seq_state`, the playback sequencer's state (R38). -/
inductive SeqState where
  | idle
  | tone
  | rest
  /-- Model-only: a model fault has stopped the sequencer (R244). -/
  | fault
  deriving DecidableEq, Repr

/-- The playback sequencer (R37 to R39). -/
structure Sequencer where
  /-- `pos`, the Playback Cursor (R37). -/
  pos : Half
  /-- `seq_state` (R38). -/
  state : SeqState
  /-- `seq_wait`, a natural number of clock cycles (R39). -/
  wait : Nat
  deriving DecidableEq, Repr

/-- The tone timer and the buzzer (R40 to R44). -/
structure ToneTimer where
  /-- `tmr_en` (R40). -/
  en : Bool
  /-- `tmr_reload` (R41). -/
  reload : Half
  /-- `tmr_count` (R42). -/
  count : Half
  /-- `tmr_presc`, a natural number below `TIMER_DIV` (R43). -/
  presc : Nat
  /-- `buzz`, the level of the output `buzz_out` (R44, R57). -/
  buzz : Bool
  deriving DecidableEq, Repr

/-- The Song Buffer `SB` with the model-only bits `written` (R45, R46): the entries written since reset, by index, in
rising order. An index that is not listed has `written = 0` and no content (log entry 5); `SongBuffer.wf` says the form. -/
abbrev SongBuffer := List (Nat × NoteEntry)

/-- The model faults of 60_exceptions.md R243. They are no traps and do not end a run: a fault is recorded in `faults`
and stops the sequencer only (R244). -/
inductive ModelFault where
  /-- `F_INVALID_PITCH` (R188). -/
  | invalidPitch
  /-- `F_CURSOR_OVERRUN` (R189). -/
  | cursorOverrun
  /-- `F_UNWRITTEN_ENTRY` (R190). -/
  | unwrittenEntry
  deriving DecidableEq, Repr

/-- `faults`, a set of model faults (R47): which of the three it holds. -/
structure FaultSet where
  invalidPitch : Bool
  cursorOverrun : Bool
  unwrittenEntry : Bool
  deriving DecidableEq, Repr

/-- What the outside gives the block in one clock cycle (R52 to R57): free inputs. -/
structure CycleInput where
  /-- `rst` (R57). -/
  rst : Bool := false
  /-- `NV_BOOT_VALUE`, sampled in a cycle with `rst = 1` and ignored in any other (R55, R272). -/
  nvBoot : Byte := 0
  /-- `rx_valid` and `rx_data`: `none` is `rx_valid = 0` (R52). -/
  rx : Option Byte := none
  /-- `tx_done` (R53). -/
  txDone : Bool := false
  /-- `btn_inc` (R54). -/
  btnInc : Bool := false
  /-- `btn_dec` (R54). -/
  btnDec : Bool := false
  deriving DecidableEq, Repr

/-- What the block drove combinationally in one clock cycle. `none` is the strobe at 0, when the other lines are
don't-care (R53, R66). -/
structure CycleOutput where
  /-- `tx_start` and `tx_data` (R53, R226). -/
  tx : Option Byte
  /-- `nv_we`, and `nv_addr` with `nv_wdata` (R55, R66). -/
  nv : Option (Byte × Byte)
  deriving DecidableEq, Repr

/-- Everything the block holds (R21). `inputs` and `out` are the model's own fields, not registers of the block:
the inputs of the cycles still to come, oldest first, and the outputs of the last cycle (log entries 1 and 2). -/
structure State where
  /-- The Inbound Frame. -/
  frame : InboundFrame
  /-- The Shared Flags. -/
  flags : SharedFlags
  /-- `nodeid` (R36). -/
  nodeid : Nibble
  /-- The playback sequencer's registers. -/
  seq : Sequencer
  /-- The tone timer and the buzzer. -/
  timer : ToneTimer
  /-- `SB` and `written`. -/
  sb : SongBuffer
  /-- `faults` (model-only). -/
  faults : FaultSet
  /-- The inputs of the coming cycles; with none left, every input is low. -/
  inputs : List CycleInput
  /-- The outputs of the last cycle. -/
  out : CycleOutput
  deriving DecidableEq, Repr

/-- Why the model stops. Nothing in the specification stops the block (R240). -/
inductive Fault where
  /-- Raised by the frame receiver's `SBWrite` at an index at or above `MAX_NOTES`, where R63 defines none. R82 says that
  it never happens, and `Safety.Inv` rules it out: only a state that no run reaches gets here. Safe. -/
  | songBufferIndex
  deriving DecidableEq, Repr

/-- Why an instruction has no meaning. -/
inductive Refusal where
  /-- Raised by `exec` for an instruction the model has not reached: no arm does so now. Safe. -/
  | notModelled (mnemonic : String)
  deriving DecidableEq, Repr

/-- Every register at its reset value (R271), the node ID loaded from the store's byte (R272), the Song Buffer's
content unspecified (R45), and nothing driven (R270). -/
def State.resetWith (stored : Byte) (inputs : List CycleInput) : State where
  frame := ⟨.idle, 0, 0, 0, 0, 0, false, false, 0, 0⟩
  flags := ⟨false, false, false, false, 0x00, false⟩
  nodeid := bootNodeId stored
  seq := ⟨0, .idle, 0⟩
  timer := ⟨false, 0, 0, 0, Config.buzzReset⟩
  sb := []
  faults := ⟨false, false, false⟩
  inputs := inputs
  out := ⟨none, none⟩

/-- The machine right after reset: the first cycle with `rst = 0` comes next (R270), and no input is scheduled. -/
def State.reset : State := State.resetWith Config.nvBootValue []

end Sys2Proof.Machine
end

