-- ==== Sys2Proof/Machine/Ops.lean ====
section
/-! DEFINITION. The named operations of 00_scope.md R12 over the state: `SBRead`, `SBWrite`, `Queue`, `raise Fault`,
the cursor's advance, and the chaining of a cycle's parts. -/

namespace Sys2Proof.Machine

/-- The outcome of one part of a cycle or of a whole one. -/
abbrev Result := Host.Outcome State Fault Refusal

/-- One part of a cycle, then the next on the state it gives; a stop stays a stop. -/
def andThen (r : Result) (f : State → Result) : Result :=
  match r with
  | .next s => f s
  | .fault e => .fault e
  | .refused e => .refused e

/-! ## The Song Buffer -/

/-- The entry at an index, `none` where `written` is 0 (R46, R64). -/
def SongBuffer.read : SongBuffer → Nat → Option NoteEntry
  | [], _ => none
  | (j, e) :: rest, i => if j = i then some e else SongBuffer.read rest i

/-- The buffer with one whole entry written (R63), in the canonical form. -/
def SongBuffer.write : SongBuffer → Nat → NoteEntry → SongBuffer
  | [], i, e => [(i, e)]
  | (j, f) :: rest, i, e =>
    if i < j then (i, e) :: (j, f) :: rest
    else if i = j then (i, e) :: rest
    else (j, f) :: SongBuffer.write rest i e

/-- Indices strictly rising from `lo`, all below `MAX_NOTES`. -/
def SongBuffer.wfFrom : Nat → SongBuffer → Bool
  | _, [] => true
  | lo, (j, _) :: rest => decide (lo ≤ j) && decide (j < Config.maxNotes) && SongBuffer.wfFrom (j + 1) rest

/-- The canonical form of the Song Buffer: equal buffers are equal lists. -/
def SongBuffer.wf (m : SongBuffer) : Bool := SongBuffer.wfFrom 0 m

/-- `written[i]` (R46). -/
def State.written (s : State) (i : Nat) : Bool := (SongBuffer.read s.sb i).isSome

/-- `SBRead(i)` (R64), `none` where `written[i]` is 0. -/
def State.sbRead (s : State) (i : Nat) : Option NoteEntry := SongBuffer.read s.sb i

/-- `SBWrite(i, p, d)`, defined for `i < MAX_NOTES` (R63). -/
def State.sbWrite (s : State) (i : Nat) (e : NoteEntry) : Result :=
  if i < Config.maxNotes then .next { s with sb := SongBuffer.write s.sb i e } else .fault .songBufferIndex

/-! ## Model faults -/

/-- The set of no faults. -/
def FaultSet.empty : FaultSet := ⟨false, false, false⟩

/-- `faults ∪ {f}`. -/
def FaultSet.insert (fs : FaultSet) : ModelFault → FaultSet
  | .invalidPitch => { fs with invalidPitch := true }
  | .cursorOverrun => { fs with cursorOverrun := true }
  | .unwrittenEntry => { fs with unwrittenEntry := true }

/-- Whether the set holds a fault. -/
def FaultSet.has (fs : FaultSet) : ModelFault → Bool
  | .invalidPitch => fs.invalidPitch
  | .cursorOverrun => fs.cursorOverrun
  | .unwrittenEntry => fs.unwrittenEntry

/-- `raise Fault(f)` (R244): the one operation in the place of an exception's entry. Nothing is saved and nothing
returns: "only reset leaves it". -/
def State.raiseFault (s : State) (f : ModelFault) : State :=
  { s with faults := s.faults.insert f, seq := { s.seq with state := .fault } }

/-! ## Registers -/

/-- `fr_event <- e; fr_param <- n` (R121). -/
def State.noteHeader (s : State) (event param : Nibble) : State :=
  { s with frame := { s.frame with event := event, param := param } }

/-- `Queue(v)` (R225). -/
def State.queue (s : State) (v : Byte) : State :=
  { s with flags := { s.flags with responseData := v, sendResponse := true } }

/-- `pos <- v`. -/
def State.setPos (s : State) (v : Half) : State := { s with seq := { s.seq with pos := v } }

/-- `pos <- pos + 1` (R37), modulo 2^16 (R10). -/
def State.advance (s : State) : State := s.setPos (s.seq.pos + 1)

end Sys2Proof.Machine
end

