-- ==== Sys2Proof/Machine/Operands.lean ====
section
/-! DEFINITION. What the rules read: the target comparison, the coordinator test, the pitch ROMs, durations, payload
places, the response bytes, and the entry at the cursor. -/

namespace Sys2Proof.Machine

/-- `n == nodeid`, a 4-bit compare (R100, R122). -/
def State.addressed (s : State) (n : Nibble) : Bool := n == s.nodeid

/-- `nodeid == COORDINATOR_ID` (R198). -/
def State.isCoordinator (s : State) : Bool := s.nodeid == Config.coordinatorId

/-- `accept = fr_match AND NOT fr_oversize` (R125). -/
def State.accept (s : State) : Bool := s.frame.matched && !s.frame.oversize

/-- `ROM(p)`: the first table is the high byte of the reload, the second the low byte (R65). -/
def romReload (p : Pitch) : Half := bigEndian (Config.thRom p) (Config.tlRom p)

/-- `duration * UNIT_CYCLES` (R39, R182, R184). -/
def durationCycles (d : Half) : Nat := d.toNat * Config.unitCycles

/-- `k mod 3`, a payload byte's place in its triple (R71). -/
def triplePlace (k : Half) : Nat := k.toNat % 3

/-- `k div 3`, the slot of a payload byte's triple (R71). -/
def tripleSlot (k : Half) : Nat := k.toNat / 3

/-! ## Response bytes (R98) -/

/-- 0xE0, load OK. -/
def respLoadOk : Byte := 0xE0

/-- 0xF0, checksum mismatch. -/
def respMismatch : Byte := 0xF0

/-- 0xF1, declared length exceeds capacity. -/
def respOversize : Byte := 0xF1

/-- 0x20, song ended. -/
def respSongEnded : Byte := 0x20

/-- 0x70, sync-wait reached. -/
def respSyncWait : Byte := 0x70

/-- All response bytes of a node. -/
def responseBytes : List Byte := [respLoadOk, respMismatch, respOversize, respSongEnded, respSyncWait]

/-! ## The entry at the cursor -/

/-- What a dispatch finds at `pos` (R181). -/
inductive NoteFetch where
  /-- `pos >= MAX_NOTES` (R189). -/
  | overrun
  /-- `written[pos] == 0` (R190). -/
  | unwritten
  /-- The entry `SBRead(pos)`. -/
  | entry (e : NoteEntry)
  deriving DecidableEq, Repr

/-- The dispatch's look at the Song Buffer (R181). -/
def State.fetchNote (s : State) : NoteFetch :=
  if Config.maxNotes ≤ s.seq.pos.toNat then .overrun
  else match s.sbRead s.seq.pos.toNat with
    | none => .unwritten
    | some e => .entry e

end Sys2Proof.Machine
end

