-- ==== Sys2Proof/Machine/Flags.lean ====
section
/-! DEFINITION. The Shared Flags' updates (10_state.md R30 to R35) and the two tests a load frame rests on. -/

namespace Sys2Proof.Machine

/-- `pos <- 0; isMusicPlaying <- 1; isWaitingForSync <- 0` (R153). -/
def State.startPlayback (s : State) : State :=
  { s.setPos 0 with flags := { s.flags with isMusicPlaying := true, isWaitingForSync := false } }

/-- `isMusicPlaying <- 0; isWaitingForSync <- 0; pos <- 0` (R154). -/
def State.stopPlayback (s : State) : State :=
  { s.setPos 0 with flags := { s.flags with isMusicPlaying := false, isWaitingForSync := false } }

/-- `isWaitingForSync <- v` (R158, R187). -/
def State.setWaiting (s : State) (v : Bool) : State :=
  { s with flags := { s.flags with isWaitingForSync := v } }

/-- `isMusicPlaying <- 0` (R186). -/
def State.clearPlaying (s : State) : State :=
  { s with flags := { s.flags with isMusicPlaying := false } }

/-- `dataReady <- v` (R122, R127). -/
def State.setReady (s : State) (v : Bool) : State :=
  { s with flags := { s.flags with dataReady := v } }

/-- Whether the sequencer dispatches in `S_IDLE` (R180). -/
def State.playbackEnabled (s : State) : Bool := s.flags.isMusicPlaying && !s.flags.isWaitingForSync

/-- `(L div 3) > MAX_NOTES`, floor division (R124). -/
def oversizeLength (len : Half) : Bool := decide (Config.maxNotes < len.toNat / 3)

/-- `fr_csum ^ b` (R126). -/
def csumStep (csum b : Byte) : Byte := csum ^^^ b

end Sys2Proof.Machine
end

