-- ==== Sys2Proof/Machine/Dispatcher.lean ====
section
/-! DEFINITION. The command dispatcher (42_command_dispatch.md): the header events other than 1. Each meaning writes
`fr_event` and `fr_param` as R121 says and then what the event's rule says. `fr_state` stays `IDLE` (R150). -/

namespace Sys2Proof.Machine

/-- NOP (R151). -/
def execNop (n : Nibble) (s : State) : Result := .next (s.noteHeader 0x0 n)

/-- RSV2 (R152). -/
def execRsv2 (n : Nibble) (s : State) : Result := .next (s.noteHeader 0x2 n)

/-- START (R153): `dataReady` is not tested. -/
def execStart (n : Nibble) (s : State) : Result := .next (s.noteHeader 0x3 n).startPlayback

/-- STOP (R154): the cursor is reset too (90_conflicts.md C1). -/
def execStop (n : Nibble) (s : State) : Result := .next (s.noteHeader 0x4 n).stopPlayback

/-- STARTN (R155). -/
def execStartn (n : Nibble) (s : State) : Result :=
  .next (if s.addressed n then (s.noteHeader 0x5 n).startPlayback else s.noteHeader 0x5 n)

/-- STOPN (R156). -/
def execStopn (n : Nibble) (s : State) : Result :=
  .next (if s.addressed n then (s.noteHeader 0x6 n).stopPlayback else s.noteHeader 0x6 n)

/-- RSV7 (R157). -/
def execRsv7 (n : Nibble) (s : State) : Result := .next (s.noteHeader 0x7 n)

/-- SYNCACK (R158): it clears `isWaitingForSync` only (90_conflicts.md C4). -/
def execSyncack (n : Nibble) (s : State) : Result := .next ((s.noteHeader 0x8 n).setWaiting false)

/-- RSV9 (R159). -/
def execRsv9 (n : Nibble) (s : State) : Result := .next (s.noteHeader 0x9 n)

/-- RSVA (R160). -/
def execRsva (n : Nibble) (s : State) : Result := .next (s.noteHeader 0xA n)

/-- RSVB (R161). -/
def execRsvb (n : Nibble) (s : State) : Result := .next (s.noteHeader 0xB n)

/-- RSVC (R162). -/
def execRsvc (n : Nibble) (s : State) : Result := .next (s.noteHeader 0xC n)

/-- RSVD (R163). -/
def execRsvd (n : Nibble) (s : State) : Result := .next (s.noteHeader 0xD n)

/-- HOSTE (R164). -/
def execHoste (n : Nibble) (s : State) : Result := .next (s.noteHeader 0xE n)

/-- HOSTF (R165). -/
def execHostf (n : Nibble) (s : State) : Result := .next (s.noteHeader 0xF n)

end Sys2Proof.Machine
end

