-- ==== Sys2Proof/Machine/Receiver.lean ====
section
/-! DEFINITION. The frame receiver (41_frame_receiver.md): the load-start header and the four states of a load frame. -/

namespace Sys2Proof.Machine

/-- LOAD, the load-start header (R122, with R121's `fr_event` and `fr_param`). The target comparison is latched here. -/
def execLoad (n : Nibble) (s : State) : Result :=
  .next { s with
    frame := { s.frame with
      state := .lenHi, event := 0x1, param := n, len := 0, count := 0, csum := 0,
      matched := s.addressed n, oversize := false }
    flags := { s.flags with dataReady := if s.addressed n then false else s.flags.dataReady } }

/-- The length's high byte, state `LEN_HI` (R123). -/
def lengthHigh (b : Byte) (s : State) : State :=
  { s with frame := { s.frame with state := .lenLo, len := bigEndian b (lowByte s.frame.len) } }

/-- `L = {fr_len[15:8], b}` (R124). -/
def declaredLength (b : Byte) (s : State) : Half := bigEndian (highByte s.frame.len) b

/-- The length's low byte, state `LEN_LO` (R124). -/
def lengthLow (b : Byte) (s : State) : State :=
  { s with frame := { s.frame with
      len := declaredLength b s
      oversize := oversizeLength (declaredLength b s)
      state := if declaredLength b s = 0 then .check else .payload } }

/-- A payload byte is counted, whether accepted or not: `fr_count <- k + 1`, and `CHECK` after the last (R126). -/
def countByte (s : State) : State :=
  { s with frame := { s.frame with
      count := s.frame.count + 1
      state := if s.frame.count + 1 = s.frame.len then .check else s.frame.state } }

/-- An accepted payload byte's share in the checksum, the staging registers and the Song Buffer (R126). -/
def acceptByte (b : Byte) (s : State) : Result :=
  let summed : State := { s with frame := { s.frame with csum := csumStep s.frame.csum b } }
  match triplePlace s.frame.count with
  | 0 => .next { summed with frame := { summed.frame with stagePitch := b } }
  | 1 => .next { summed with frame := { summed.frame with stageDhi := b } }
  | _ => summed.sbWrite (tripleSlot s.frame.count) ⟨s.frame.stagePitch, bigEndian s.frame.stageDhi b⟩

/-- A payload byte, state `PAYLOAD` (R126). -/
def payloadByte (b : Byte) (s : State) : Result :=
  if s.accept then andThen (acceptByte b s) (fun s' => .next (countByte s')) else .next (countByte s)

/-- Frame completion (R128). -/
def completeFrame (s : State) : State :=
  { s with frame := { s.frame with
      state := .idle, len := 0, count := 0, csum := 0, matched := false, oversize := false } }

/-- What the check byte says of the frame, by R247's precedence: mismatch, then oversize, then checksum (R127). -/
def judgeFrame (b : Byte) (s : State) : State :=
  if s.frame.matched = false then s
  else if s.frame.oversize = true then s.queue respOversize
  else if b = s.frame.csum then (s.setReady true).queue respLoadOk
  else (s.setReady false).queue respMismatch

/-- The check byte, state `CHECK` (R127, then R128). -/
def checkByte (b : Byte) (s : State) : State := completeFrame (judgeFrame b s)

end Sys2Proof.Machine
end

