-- ==== Sys2Proof/Machine/Sequencer.lean ====
section
/-! DEFINITION. The playback sequencer (43_playback_sequencer.md): the note codes' dispatch cycles and the cycles of a
tone or a rest in progress. -/

namespace Sys2Proof.Machine

/-- TONE, the dispatch cycle (R182). -/
def execTone (p : Pitch) (d : Half) (s : State) : Result :=
  .next (if d = 0 then s.advance
    else { s with
      timer := { s.timer with reload := romReload p, count := romReload p, presc := 0, en := true }
      seq := { s.seq with wait := durationCycles d, state := .tone } })

/-- REST, the dispatch cycle: the timer stays as it is (R184). -/
def execRest (d : Half) (s : State) : Result :=
  .next (if d = 0 then s.advance
    else { s with seq := { s.seq with wait := durationCycles d, state := .rest } })

/-- `if nodeid == COORDINATOR_ID then Queue(v)` (R186, R187). -/
def State.notify (s : State) (v : Byte) : State := if s.isCoordinator then s.queue v else s

/-- END; the duration is ignored (R186). -/
def execEndSong (_d : Half) (s : State) : Result :=
  .next ((s.setPos 0).clearPlaying.notify respSongEnded)

/-- SYNC; the duration is ignored (R187). -/
def execSync (_d : Half) (s : State) : Result :=
  .next ((s.notify respSyncWait).setWaiting true).advance

/-- RSVP: `raise Fault(F_INVALID_PITCH)` (R188). -/
def execRsvp (_p : Byte) (_d : Half) (s : State) : Result := .next (s.raiseFault .invalidPitch)

/-- A cycle of a tone in progress (R183). -/
def toneCycle (s : State) : State :=
  if 1 < s.seq.wait then { s with seq := { s.seq with wait := s.seq.wait - 1 } }
  else { s with
    timer := { s.timer with en := false }
    seq := { s.seq with pos := s.seq.pos + 1, state := .idle } }

/-- A cycle of a rest in progress (R185). -/
def restCycle (s : State) : State :=
  if 1 < s.seq.wait then { s with seq := { s.seq with wait := s.seq.wait - 1 } }
  else { s with seq := { s.seq with pos := s.seq.pos + 1, state := .idle } }

end Sys2Proof.Machine
end

