-- ==== Sys2Proof/Machine/Dispatch.lean ====
section
/-! DEFINITION. The meaning of each instruction, one arm a constructor of Instr. A header's meaning is its effect at the
clock edge of its byte's cycle, a note's its effect at the edge of its dispatch cycle. -/

namespace Sys2Proof.Machine

def exec (i : Instr) (s : State) : Host.Outcome State Fault Refusal :=
  match i with
  | .nop n => Sys2Proof.Machine.execNop n s
  | .load n => Sys2Proof.Machine.execLoad n s
  | .rsv2 n => Sys2Proof.Machine.execRsv2 n s
  | .start n => Sys2Proof.Machine.execStart n s
  | .stop n => Sys2Proof.Machine.execStop n s
  | .startn n => Sys2Proof.Machine.execStartn n s
  | .stopn n => Sys2Proof.Machine.execStopn n s
  | .rsv7 n => Sys2Proof.Machine.execRsv7 n s
  | .syncack n => Sys2Proof.Machine.execSyncack n s
  | .rsv9 n => Sys2Proof.Machine.execRsv9 n s
  | .rsva n => Sys2Proof.Machine.execRsva n s
  | .rsvb n => Sys2Proof.Machine.execRsvb n s
  | .rsvc n => Sys2Proof.Machine.execRsvc n s
  | .rsvd n => Sys2Proof.Machine.execRsvd n s
  | .hoste n => Sys2Proof.Machine.execHoste n s
  | .hostf n => Sys2Proof.Machine.execHostf n s
  | .tone p d => Sys2Proof.Machine.execTone p d s
  | .rest d => Sys2Proof.Machine.execRest d s
  | .endSong d => Sys2Proof.Machine.execEndSong d s
  | .sync d => Sys2Proof.Machine.execSync d s
  | .rsvp p d => Sys2Proof.Machine.execRsvp p d s

end Sys2Proof.Machine
end

