-- ==== Sys2Proof/Machine/NodeIo.lean ====
section
/-! DEFINITION. The node-ID buttons with their persistence write, the response transmitter, and the outputs
(44_node_id_and_transmit.md, 10_state.md R53 to R57). -/

namespace Sys2Proof.Machine

/-- The node ID that an accepted button pulse gives, `none` in a cycle with none (R221, R222, R223). -/
def buttonResult (inp : CycleInput) (s : State) : Option Nibble :=
  if s.flags.isMusicPlaying then none
  else match inp.btnInc, inp.btnDec with
    | true, false => some (s.nodeid + 1)
    | false, true => some (s.nodeid + 15)
    | true, true => none
    | false, false => none

/-- `NVWrite(NV_NODEID_ADDR, {0000, v})` in the cycle of an accepted pulse, `none` where `nv_we = 0` (R66, R221, R222). -/
def nvWrite (inp : CycleInput) (s : State) : Option (Byte × Byte) :=
  (buttonResult inp s).map (fun v => (Config.nvNodeIdAddr, v.setWidth 8))

/-- Whether the transmitter takes the pending byte in this cycle (R226). -/
def State.drains (s : State) : Bool := s.flags.sendResponse && !s.flags.uartBusy

/-- `tx_start` and `tx_data` (R226). -/
def txDrive (s : State) : Option Byte := if s.drains then some s.flags.responseData else none

/-- The transmitter's part of a cycle: the drain (R226), else the clear by `tx_done` (R227); the drain's set of
`uartBusy` wins (R246). -/
def transmitCycle (inp : CycleInput) (s : State) : State :=
  if s.drains then { s with flags := { s.flags with uartBusy := true, sendResponse := false } }
  else if inp.txDone then { s with flags := { s.flags with uartBusy := false } }
  else s

/-- The outputs of a cycle, from the state before its edge. -/
def cycleOutput (inp : CycleInput) (s : State) : CycleOutput := ⟨txDrive s, nvWrite inp s⟩

/-- The status outputs (R56) with `buzz_out` (R57), driven from the registers of the same names. -/
structure StatusOutputs where
  nodeid : Nibble
  pos : Half
  isMusicPlaying : Bool
  isWaitingForSync : Bool
  dataReady : Bool
  buzzOut : Bool
  deriving DecidableEq, Repr

/-- The status outputs of a state. -/
def State.status (s : State) : StatusOutputs :=
  ⟨s.nodeid, s.seq.pos, s.flags.isMusicPlaying, s.flags.isWaitingForSync, s.flags.dataReady, s.timer.buzz⟩

end Sys2Proof.Machine
end

