-- ==== Sys2Proof/Machine/Timer.lean ====
section
/-! DEFINITION. The tone timer (43_playback_sequencer.md R191). -/

namespace Sys2Proof.Machine

/-- One count of the timer: at 0xFFFF it overflows, reloads and toggles the buzzer (R191). -/
def timerCount (t : ToneTimer) : ToneTimer :=
  if t.count = 0xFFFF then { t with presc := 0, count := t.reload, buzz := !t.buzz }
  else { t with presc := 0, count := t.count + 1 }

/-- One cycle of the timer; with `tmr_en = 0` nothing changes (R191, R193). -/
def timerTick (t : ToneTimer) : ToneTimer :=
  if t.en then
    if t.presc = Config.timerDiv - 1 then timerCount t else { t with presc := t.presc + 1 }
  else t

/-- The timer's part of a cycle. -/
def timerCycle (s : State) : State := { s with timer := timerTick s.timer }

end Sys2Proof.Machine
end

