-- ==== Sys2Proof/Machine/Cycle.lean ====
section
/-! DEFINITION. One clock cycle (00_scope.md R7, R11, R16, 20_memory.md R75): every agent steps on the state before the
edge, and the writes of one field are merged in the order of 60_exceptions.md R246. The agents are run one after the other
in that order, which is the same because no agent reads a field that an agent before it writes (log entry 3). -/

namespace Sys2Proof.Machine

/-- The dispatch of the entry at `pos` (R181). -/
def dispatchEntry (s : State) : Result :=
  match s.fetchNote with
  | .overrun => .next (s.raiseFault .cursorOverrun)
  | .unwritten => .next (s.raiseFault .unwrittenEntry)
  | .entry e => exec (decodeNote e.bits) s

/-- The sequencer's part of a cycle (R180). -/
def sequencerCycle (s : State) : Result :=
  match s.seq.state with
  | .idle => if s.playbackEnabled then dispatchEntry s else .next s
  | .tone => .next (toneCycle s)
  | .rest => .next (restCycle s)
  | .fault => .next s

/-- The frame receiver's and the dispatcher's part of a cycle with the byte `b` (R120, R121, R150). -/
def receiveByte (b : Byte) (s : State) : Result :=
  match s.frame.state with
  | .idle => exec (decodeHeader b) s
  | .lenHi => .next (lengthHigh b s)
  | .lenLo => .next (lengthLow b s)
  | .payload => payloadByte b s
  | .check => .next (checkByte b s)

/-- The receive path's part of a cycle; with `rx_valid = 0` it does nothing (R120). -/
def receiverCycle (inp : CycleInput) (s : State) : Result :=
  match inp.rx with
  | none => .next s
  | some b => receiveByte b s

/-- The parts that come first in the merge order: the timer, which no other part's field meets, and the transmitter. -/
def beginCycle (inp : CycleInput) (s : State) : State := transmitCycle inp (timerCycle s)

/-- The parts that read the state before the edge (`pre`) and write fields of their own: the node ID and the outputs. -/
def endCycle (inp : CycleInput) (pre s : State) : State :=
  { s with
    nodeid := (buttonResult inp pre).getD s.nodeid
    out := cycleOutput inp pre }

/-- A cycle with `rst = 0`. -/
def activeCycle (inp : CycleInput) (s : State) : Result :=
  andThen (sequencerCycle (beginCycle inp s)) (fun s₁ =>
    andThen (receiverCycle inp s₁) (fun s₂ => .next (endCycle inp s s₂)))

/-- A cycle with `rst = 1`: every register takes its reset value and every other input is ignored (R57, R270). -/
def resetCycle (inp : CycleInput) (s : State) : State := State.resetWith inp.nvBoot s.inputs

/-- A cycle whose inputs have been taken from the schedule. -/
def runCycle (inp : CycleInput) (s : State) : Result :=
  if inp.rst then .next (resetCycle inp s) else activeCycle inp s

/-- The inputs of the coming cycle: the schedule's first, or every input low when none is left. -/
def State.currentInput (s : State) : CycleInput := s.inputs.headD {}

/-- The state with the coming cycle's inputs taken from the schedule. -/
def State.takeInput (s : State) : State := { s with inputs := s.inputs.tail }

/-- One clock cycle. -/
def clockCycle (s : State) : Result := runCycle s.currentInput s.takeInput

/-! ## Placing a word where it is fetched -/

/-- The schedule whose coming cycle delivers `rx` and is no reset cycle. -/
def scheduleRx (rx : Option Byte) (inputs : List CycleInput) : List CycleInput :=
  { inputs.headD {} with rst := false, rx := rx } :: inputs.tail

/-- A header byte stands on the receive input of the coming cycle, with the receiver at a frame boundary. -/
def placeHeader (b : Byte) (s : State) : State :=
  { s with
    frame := { s.frame with state := .idle }
    inputs := scheduleRx (some b) s.inputs }

/-- The slot that `placeNote` fills: the cursor's, or 0 where the cursor is past the buffer. -/
def noteSlot (s : State) : Half := if s.seq.pos.toNat < Config.maxNotes then s.seq.pos else 0

/-- A note entry stands in the Song Buffer at the cursor, with the sequencer enabled and between entries and no byte
received in the coming cycle. -/
def placeNote (e : NoteEntry) (s : State) : State :=
  { s with
    sb := SongBuffer.write s.sb (noteSlot s).toNat e
    seq := { s.seq with pos := noteSlot s, state := .idle }
    flags := { s.flags with isMusicPlaying := true, isWaitingForSync := false }
    inputs := scheduleRx none s.inputs }

/-- A word where the coming cycle fetches it. -/
def placeWord : CodeWord → State → State
  | .hdr b, s => placeHeader b s
  | .note w, s => placeNote (NoteEntry.ofBits w) s

end Sys2Proof.Machine
end

