-- ==== Sys2Proof/Machine/Step.lean ====
section
/-! DEFINITION. The machine's step is one clock cycle. -/

namespace Sys2Proof.Machine

/-- One clock cycle of the block (00_scope.md R7). -/
def step (s : State) : Host.Outcome State Fault Refusal := clockCycle s

/-- `s` with the table's word of `nbits` bits and value `w` where the coming cycle fetches it: a header byte on the
receive input, a note entry in the Song Buffer at the cursor of a playing node (log entry 6). Another width is no word. -/
def State.withFetchWord (s : State) (nbits w : Nat) : State :=
  match tableWord nbits w with
  | some c => placeWord c s
  | none => s

end Sys2Proof.Machine
end

