-- ==== Sys2Proof/Safety.lean ====
section
/-! DEFINITION. The terms in which claims speak: the playback modes (10_state.md R50), frame boundaries, quiescence and
successful ends (70_reset_and_hazards.md R282), the invariant of every reachable state, runs, and the schedules a bus can
supply (R230). -/

namespace Sys2Proof.Safety

open Sys2Proof.Machine

/-! ## Modes and ends of runs -/

/-- The three playback modes (R50). -/
inductive Mode where
  | configuring
  | playing
  | playingBlockedOnSync
  deriving DecidableEq, Repr

/-- The mode is read off the two flags, it is no register (R50). Without the flag invariant of R49 the fourth
combination, waiting and not playing, would be `configuring` too. -/
def mode (s : State) : Mode :=
  if s.flags.isMusicPlaying then
    if s.flags.isWaitingForSync then .playingBlockedOnSync else .playing
  else .configuring

/-- A frame boundary: `fr_state = IDLE` (R282). -/
abbrev FrameBoundary (s : State) : Prop := s.frame.state = .idle

/-- The premise of every claim about a run: no model fault has been raised (R47, R244). -/
abbrev Faultless (s : State) : Prop := s.faults = FaultSet.empty

/-- Quiescence (R282). -/
abbrev Quiescent (s : State) : Prop :=
  FrameBoundary s ∧ s.seq.state = .idle ∧ s.flags.isMusicPlaying = false ∧ s.flags.sendResponse = false ∧
    s.flags.uartBusy = false ∧ Faultless s

/-- The registers and memories of the block: all of the state but the model's own `inputs` and `out`. -/
abbrev SameRegisters (s t : State) : Prop :=
  s.frame = t.frame ∧ s.flags = t.flags ∧ s.nodeid = t.nodeid ∧ s.seq = t.seq ∧ s.timer = t.timer ∧
    s.sb = t.sb ∧ s.faults = t.faults

/-! ## The invariant of the reachable states -/

/-- The frame receiver's registers fit its state (R22 to R28, R124 to R128): outside a load frame they are clear, the
count never passes the length, and the oversize bit is the test of the whole length once both bytes are in. -/
def FrameInv (f : InboundFrame) : Prop :=
  match f.state with
  | .idle => f.len = 0 ∧ f.count = 0 ∧ f.csum = 0 ∧ f.matched = false ∧ f.oversize = false
  | .lenHi => f.len = 0 ∧ f.count = 0 ∧ f.csum = 0 ∧ f.oversize = false
  | .lenLo => lowByte f.len = 0 ∧ f.count = 0 ∧ f.csum = 0 ∧ f.oversize = false
  | .payload => f.count.toNat < f.len.toNat ∧ f.oversize = oversizeLength f.len
  | .check => f.count = f.len ∧ f.oversize = oversizeLength f.len

/-- R49: waiting for sync implies playing. -/
def FlagInv (s : State) : Prop := s.flags.isWaitingForSync = true → s.flags.isMusicPlaying = true

/-- The sequencer's registers: an entry in progress has cycles left, fewer than `65536 * UNIT_CYCLES` (R39), and the
cursor stays at a slot of the buffer or just past its end (R37). -/
def SequencerInv (s : State) : Prop :=
  s.seq.pos.toNat ≤ Config.maxNotes ∧
    (s.seq.state = .tone ∨ s.seq.state = .rest →
      s.seq.pos.toNat < Config.maxNotes ∧ 1 ≤ s.seq.wait ∧ s.seq.wait < 65536 * Config.unitCycles)

/-- The timer runs exactly during a tone (R40), and its prescaler stays below `TIMER_DIV` (R43). -/
def TimerInv (s : State) : Prop :=
  (s.timer.en = true ↔ s.seq.state = .tone) ∧ s.timer.presc < Config.timerDiv

/-- A fault is recorded exactly when the sequencer stands in `S_FAULT` (R244). -/
def FaultInv (s : State) : Prop := s.seq.state = .fault ↔ ¬ Faultless s

/-- The invariant that every cycle keeps. -/
structure Inv (s : State) : Prop where
  frame : FrameInv s.frame
  flags : FlagInv s
  sequencer : SequencerInv s
  timer : TimerInv s
  fault : FaultInv s
  songBuffer : SongBuffer.wf s.sb = true

/-! ## One cycle -/

/-- The coming cycle is no reset cycle. -/
abbrev Active (s : State) : Prop := s.currentInput.rst = false

/-- The coming cycle is active and delivers the byte `b`. -/
abbrev Receives (s : State) (b : Byte) : Prop := Active s ∧ s.currentInput.rx = some b

/-- The coming cycle is active and delivers no byte. -/
abbrev ReceivesNothing (s : State) : Prop := Active s ∧ s.currentInput.rx = none

/-- The sequencer looks for an entry to dispatch (R180). -/
abbrev SequencerEnabled (s : State) : Prop :=
  s.seq.state = .idle ∧ s.flags.isMusicPlaying = true ∧ s.flags.isWaitingForSync = false

/-- The sequencer dispatches the entry `e`: it is enabled and `e` stands, written, at the cursor (R181). -/
abbrev Dispatches (s : State) (e : NoteEntry) : Prop :=
  SequencerEnabled s ∧ s.seq.pos.toNat < Config.maxNotes ∧ s.sbRead s.seq.pos.toNat = some e

/-- `s` with the byte of the coming cycle taken away, every other input as it is. -/
def withoutByte (s : State) : State :=
  { s with inputs := { s.currentInput with rx := none } :: s.inputs.tail }

/-- The byte of the coming cycle does exactly `f` to what the cycle would do without it: what `f` writes wins over what
the other agents write in the same cycle (R246), and everything else is as without the byte. -/
def ByteEffect (s : State) (f : State → State) : Prop :=
  ∃ u, step (withoutByte s) = .next u ∧ step s = .next (f u)

/-! ## Runs -/

/-- `s` with a schedule of inputs in the place of its own. -/
def withInputs (s : State) (ins : List CycleInput) : State := { s with inputs := ins }

/-- `RunsTo s ins t`: the cycles with the inputs `ins`, one after the other from `s`, all give a next state and end in
`t`, which has nothing scheduled. -/
def RunsTo (s : State) (ins : List CycleInput) (t : State) : Prop :=
  Host.Core.run Sys2Proof.core ins.length (withInputs s ins) = .next t

/-- `t` is reached from reset by some schedule of inputs, reset cycles among them. -/
def Reachable (t : State) : Prop :=
  ∃ (stored : Byte) (ins : List CycleInput), RunsTo (State.resetWith stored []) ins t

/-- No cycle of the schedule is a reset cycle. -/
abbrev NoReset (ins : List CycleInput) : Prop := ∀ i ∈ ins, i.rst = false

/-- No cycle of the schedule delivers a byte. -/
abbrev NoBytes (ins : List CycleInput) : Prop := ∀ i ∈ ins, i.rx = none

/-- The bytes that a schedule delivers, in the order of their cycles. -/
def bytesOf (ins : List CycleInput) : List Byte := ins.filterMap (·.rx)

/-- The schedule delivers exactly these bytes, however many cycles without a byte stand before, between and after them
(R52: a byte comes in a cycle with `rx_valid = 1`), and whatever its other inputs are. -/
abbrev Delivers (ins : List CycleInput) (bytes : List Byte) : Prop := bytesOf ins = bytes

/-- The last cycle of the schedule delivers a byte. -/
abbrev EndsOnByte (ins : List CycleInput) : Prop := ins.getLast?.bind (·.rx) ≠ none

/-- The cycles of the schedule before its first byte. -/
def beforeFirstByte (ins : List CycleInput) : List CycleInput := ins.takeWhile (·.rx.isNone)

/-- The same cycles with every byte taken away, all other inputs as they are. -/
def withoutBytes (ins : List CycleInput) : List CycleInput := ins.map (fun i => { i with rx := none })

/-! ## Hearing oneself -/

/-- The bytes that the cycles of a run delivered to the block. -/
def received (cycles : List (CycleInput × CycleOutput)) : List Byte := cycles.filterMap (·.1.rx)

/-- The bytes that the block started to transmit in the cycles of a run. -/
def sent (cycles : List (CycleInput × CycleOutput)) : List Byte := cycles.filterMap (·.2.tx)

/-- What `RX_SEES_OWN_TX` says of a finished run, in which no byte is in flight (R230): if it is true, the bytes sent
came back, in their order, among the bytes received. When each came back is not given. -/
def EchoAdmissible (cycles : List (CycleInput × CycleOutput)) : Prop :=
  Config.rxSeesOwnTx = true → (sent cycles).Sublist (received cycles)

end Sys2Proof.Safety
end

