-- ==== Sys2Proof/Certificates/Slice0/Obligations.lean ====
section
/-! DEFINITION. The statements for the provers. A docstring names the rules of spec/ a statement comes from; the listing
with quotes is OBLIGATIONS.json. -/

namespace Sys2Proof.Claims

open Sys2Proof.Machine Sys2Proof.Safety

/-- A header event that only records its two nibbles: its word decodes to it, and its meaning answers the state with
`fr_event` and `fr_param` written and everything else as it was. -/
abbrev OnlyRecords (i : Instr) (event param : Nibble) : Prop :=
  decode (.hdr (headerByte event param)) = i ∧
    ∀ s : State, exec i s = .next { s with frame := { s.frame with event := event, param := param } }

/-- The Inbound Frame after the check byte (R128). -/
abbrev clearedFrame (f : InboundFrame) : InboundFrame :=
  { f with state := .idle, len := 0, count := 0, csum := 0, matched := false, oversize := false }

/-- The header `b` as `fr_event` and `fr_param` record it (R121). -/
abbrev recordedFrame (f : InboundFrame) (b : Byte) : InboundFrame :=
  { f with event := headerEvent b, param := headerParam b }

/-- A start or stop header that this node obeys: events 3 and 4, and 5 and 6 with its own node ID (R153 to R156). -/
abbrev ObeyedCommand (s : State) (b : Byte) : Prop :=
  headerEvent b = 3 ∨ headerEvent b = 4 ∨ ((headerEvent b = 5 ∨ headerEvent b = 6) ∧ headerParam b = s.nodeid)

/-- The dispatch at the cursor is one of the three that raise a model fault (R243). -/
abbrev FaultsAtDispatch (s : State) : Prop :=
  Config.maxNotes ≤ s.seq.pos.toNat ∨ s.written s.seq.pos.toNat = false ∨
    ∃ e, s.sbRead s.seq.pos.toNat = some e ∧ 128 ≤ e.pitch.toNat ∧ e.pitch.toNat ≤ 252

/-- The song entry that triple `j` of a payload encodes (R94). -/
abbrev payloadEntry (payload : List Byte) (j : Nat) : NoteEntry :=
  ⟨payload.getD (3 * j) 0, bigEndian (payload.getD (3 * j + 1) 0) (payload.getD (3 * j + 2) 0)⟩

/-- The Song Buffer of `t` is that of `s` with the complete triples of a payload in slots 0, 1, 2, ... (R62, R94). -/
abbrev HoldsTriples (s t : State) (payload : List Byte) : Prop :=
  ∀ a, t.sbRead a = if a < payload.length / 3 then some (payloadEntry payload a) else s.sbRead a

end Sys2Proof.Claims

open Sys2Proof Sys2Proof.Machine Sys2Proof.Safety Sys2Proof.Claims

/-! ## Encoding -/

/-- Decoding and encoding agree on every well-formed instruction and on every word (R90, R91, R96, R97). -/
def Obligations.DecodeEncodeRoundTrip : Prop :=
  (∀ i : Instr, i.wellFormed = true → decode (encode i) = i) ∧
  (∀ c : CodeWord, encode (decode c) = c ∧ (decode c).wellFormed = true)

/-- An instruction's bytes in bus order decode to it, in its stream, with the rest of the bytes left (R69, R90, R94). -/
def Obligations.BusBytesRoundTrip : Prop :=
  ∀ (i : Instr) (rest : List Byte), i.wellFormed = true →
    decodeBytes (encode i).stream ((encode i).bytes ++ rest) = .ok (i, rest)

/-- Every word is of exactly one row of the opcode table, and the row has the mnemonic the word decodes to (R91, R97). -/
def Obligations.OpcodeTableClassifiesEveryWord : Prop :=
  ∀ c : CodeWord, ∃ r, c.rows = [r] ∧ r.mnemonic = (decode c).mnemonic

/-- Words written out from R91, R97 and the examples of 41 to 43 decode to what they stand for. A sanity statement. -/
def Obligations.SampleWordsDecode : Prop :=
  decode (.hdr 0x35) = .start 5 ∧ decode (.hdr 0x13) = .load 3 ∧ decode (.hdr 0x67) = .stopn 7 ∧
  decode (.hdr 0x8A) = .syncack 10 ∧ decode (.hdr 0xF1) = .hostf 1 ∧
  decode (.note 0x3C0064) = .tone 60 100 ∧ decode (.note 0xFF0032) = .rest 50 ∧
  decode (.note 0xFE0000) = .endSong 0 ∧ decode (.note 0xFD0000) = .sync 0 ∧
  decode (.note 0x80000A) = .rsvp 0x80 10 ∧ decode (.note 0xFC000A) = .rsvp 0xFC 10

/-- R93: the length of a frame is told from its first three bytes alone. -/
def Obligations.FrameLengthFromThreeBytes : Prop :=
  (∀ (f : LoadFrame) (rest : List Byte), f.wellFormed = true →
    f.bytes.length = 4 + f.payload.length ∧ frameLength ((f.bytes ++ rest).take 3) = some f.bytes.length) ∧
  (∀ (b : Byte) (rest : List Byte), headerEvent b ≠ 1 → frameLength (b :: rest) = some 1)

/-! ## A step runs what it decodes -/

/-- A byte received at a frame boundary runs as the instruction it decodes to (R121, R150): the sequencer's part of the
cycle first, then `exec` of the header, then the node ID and the outputs. -/
def Obligations.StepRunsReceivedHeader : Prop :=
  ∀ (s : State) (b : Byte), Receives s b → FrameBoundary s →
    step s =
      andThen (sequencerCycle (beginCycle s.currentInput s.takeInput)) (fun s₁ =>
        andThen (exec (decode (.hdr b)) s₁) (fun s₂ => .next (endCycle s.currentInput s.takeInput s₂)))

/-- The written entry at the cursor of an enabled sequencer runs as the instruction it decodes to (R181): `exec` of the
note first, then the receive path's part of the cycle, then the node ID and the outputs. -/
def Obligations.StepRunsDispatchedEntry : Prop :=
  ∀ (s : State) (e : NoteEntry), Active s → Dispatches s e →
    step s =
      andThen (exec (decode (.note e.bits)) (beginCycle s.currentInput s.takeInput)) (fun s₁ =>
        andThen (receiverCycle s.currentInput s₁) (fun s₂ => .next (endCycle s.currentInput s.takeInput s₂)))

/-! ## The instructions' own effects -/

/-- R151, R152, R157, R159 to R165: NOP, RSV2, RSV7, RSV9, RSVA, RSVB, RSVC, RSVD, HOSTE and HOSTF complete in every
state, and change no state besides `fr_event` and `fr_param`. -/
def Obligations.IgnoredEventsOnlyRecordTheHeader : Prop :=
  ∀ n : Nibble,
    OnlyRecords (.nop n) 0x0 n ∧ OnlyRecords (.rsv2 n) 0x2 n ∧ OnlyRecords (.rsv7 n) 0x7 n ∧
    OnlyRecords (.rsv9 n) 0x9 n ∧ OnlyRecords (.rsva n) 0xA n ∧ OnlyRecords (.rsvb n) 0xB n ∧
    OnlyRecords (.rsvc n) 0xC n ∧ OnlyRecords (.rsvd n) 0xD n ∧ OnlyRecords (.hoste n) 0xE n ∧
    OnlyRecords (.hostf n) 0xF n

/-- START, STARTN, STOP, STOPN and SYNCACK complete in every state with the effect of R153 to R156 and R158, and change
nothing else; STARTN and STOPN for another node only record the header. -/
def Obligations.StartStopAndSyncackComplete : Prop :=
  ∀ (n : Nibble) (s : State),
    exec (.start n) s = .next { s with
      frame := { s.frame with event := 3, param := n }
      seq := { s.seq with pos := 0 }
      flags := { s.flags with isMusicPlaying := true, isWaitingForSync := false } } ∧
    exec (.startn n) s = .next (if n = s.nodeid then { s with
        frame := { s.frame with event := 5, param := n }
        seq := { s.seq with pos := 0 }
        flags := { s.flags with isMusicPlaying := true, isWaitingForSync := false } }
      else { s with frame := { s.frame with event := 5, param := n } }) ∧
    exec (.stop n) s = .next { s with
      frame := { s.frame with event := 4, param := n }
      seq := { s.seq with pos := 0 }
      flags := { s.flags with isMusicPlaying := false, isWaitingForSync := false } } ∧
    exec (.stopn n) s = .next (if n = s.nodeid then { s with
        frame := { s.frame with event := 6, param := n }
        seq := { s.seq with pos := 0 }
        flags := { s.flags with isMusicPlaying := false, isWaitingForSync := false } }
      else { s with frame := { s.frame with event := 6, param := n } }) ∧
    exec (.syncack n) s = .next { s with
      frame := { s.frame with event := 8, param := n }
      flags := { s.flags with isWaitingForSync := false } }

/-- LOAD completes in every state with the effect of R122 and R121, and changes nothing else: a frame for another node
leaves `dataReady`. -/
def Obligations.LoadStartCompletes : Prop :=
  ∀ (n : Nibble) (s : State),
    exec (.load n) s = .next { s with
      frame := { s.frame with
        state := .lenHi, event := 1, param := n, len := 0, count := 0, csum := 0,
        matched := decide (n = s.nodeid), oversize := false }
      flags := { s.flags with dataReady := if n = s.nodeid then false else s.flags.dataReady } }

/-- TONE and REST complete in every state with the effect of the dispatch cycle of R182 and R184, for a duration of zero
and for any other, and change nothing else. That the two tables are the high and the low byte of one reload is the spec's
own reading and no word of the source: R65 says "this spec's reading [from general knowledge, not in source: ...]" (G2 of
93_implementation_defined.md, log entry 11). -/
def Obligations.ToneAndRestDispatchComplete : Prop :=
  ∀ (p : Pitch) (d : Half) (s : State),
    exec (.tone p d) s = .next (if d = 0 then { s with seq := { s.seq with pos := s.seq.pos + 1 } }
      else { s with
        timer := { s.timer with reload := Config.thRom p ++ Config.tlRom p, count := Config.thRom p ++ Config.tlRom p,
                                presc := 0, en := true }
        seq := { s.seq with wait := d.toNat * Config.unitCycles, state := .tone } }) ∧
    exec (.rest d) s = .next (if d = 0 then { s with seq := { s.seq with pos := s.seq.pos + 1 } }
      else { s with seq := { s.seq with wait := d.toNat * Config.unitCycles, state := .rest } })

/-- END and SYNC complete in every state with the effect of R186 and R187, whatever their duration, and change nothing
else: only the coordinator, node 0, queues a byte (R198). -/
def Obligations.EndAndSyncComplete : Prop :=
  ∀ (d : Half) (s : State),
    exec (.endSong d) s = .next { s with
      seq := { s.seq with pos := 0 }
      flags := if s.nodeid = 0
        then { s.flags with isMusicPlaying := false, sendResponse := true, responseData := 0x20 }
        else { s.flags with isMusicPlaying := false } } ∧
    exec (.sync d) s = .next { s with
      seq := { s.seq with pos := s.seq.pos + 1 }
      flags := if s.nodeid = 0
        then { s.flags with isWaitingForSync := true, sendResponse := true, responseData := 0x70 }
        else { s.flags with isWaitingForSync := true } }

/-- R188: RSVP completes in every state by raising `F_INVALID_PITCH`: the sequencer stops, and `pos`, all flags and
everything else are unchanged. -/
def Obligations.ReservedPitchRaisesInvalidPitch : Prop :=
  ∀ (p : Byte) (d : Half) (s : State),
    exec (.rsvp p d) s = .next { s with
      faults := { s.faults with invalidPitch := true }
      seq := { s.seq with state := .fault } }

/-- R166: each dispatcher rule applied twice leaves the same state as applied once. -/
def Obligations.RedeliveredCommandIsNeutral : Prop :=
  ∀ (b : Byte) (s t : State), headerEvent b ≠ 1 →
    exec (decode (.hdr b)) s = .next t → exec (decode (.hdr b)) t = .next t

/-- R168 and the first sentence of R167: no dispatcher rule queues a response, drives the transmitter or writes the Song
Buffer, `dataReady`, `nodeid` or any `fr_*` register other than `fr_event` and `fr_param`. -/
def Obligations.DispatcherWritesOnlyPlaybackControl : Prop :=
  ∀ (b : Byte) (s : State), headerEvent b ≠ 1 → ∃ t, exec (decode (.hdr b)) s = .next t ∧
    t.frame = recordedFrame s.frame b ∧ t.sb = s.sb ∧ t.nodeid = s.nodeid ∧
    t.flags.dataReady = s.flags.dataReady ∧ t.flags.sendResponse = s.flags.sendResponse ∧
    t.flags.responseData = s.flags.responseData ∧ t.flags.uartBusy = s.flags.uartBusy ∧
    t.timer = s.timer ∧ t.faults = s.faults ∧ t.seq.state = s.seq.state ∧ t.seq.wait = s.seq.wait

/-! ## What one received byte does to a cycle -/

/-- A start, stop or sync acknowledgement received at a frame boundary overrides the sequencer's writes of `pos`,
`isMusicPlaying` and `isWaitingForSync` in the same cycle (R246, R153 to R156, R158); all else is as without it. -/
def Obligations.CommandOverridesTheSequencer : Prop :=
  ∀ (s : State) (b : Byte), Receives s b → FrameBoundary s →
    (headerEvent b = 3 ∨ (headerEvent b = 5 ∧ headerParam b = s.nodeid) → ByteEffect s (fun u => { u with
      frame := recordedFrame s.frame b
      seq := { u.seq with pos := 0 }
      flags := { u.flags with isMusicPlaying := true, isWaitingForSync := false } })) ∧
    (headerEvent b = 4 ∨ (headerEvent b = 6 ∧ headerParam b = s.nodeid) → ByteEffect s (fun u => { u with
      frame := recordedFrame s.frame b
      seq := { u.seq with pos := 0 }
      flags := { u.flags with isMusicPlaying := false, isWaitingForSync := false } })) ∧
    (headerEvent b = 8 → ByteEffect s (fun u => { u with
      frame := recordedFrame s.frame b
      flags := { u.flags with isWaitingForSync := false } }))

/-- A header of a reserved event, or a unicast start or stop for another node, received at a frame boundary changes
nothing but `fr_event` and `fr_param` (R241 (d), R101, R155, R156). -/
def Obligations.ForeignHeaderIsIgnored : Prop :=
  ∀ (s : State) (b : Byte), Receives s b → FrameBoundary s →
    headerEvent b ∈ [0x0, 0x2, 0x7, 0x9, 0xA, 0xB, 0xC, 0xD, 0xE, 0xF] ∨
      (headerEvent b ∈ [0x5, 0x6] ∧ headerParam b ≠ s.nodeid) →
    ByteEffect s (fun u => { u with frame := recordedFrame s.frame b })

/-- Every response byte of a node (R98), received by a node at a frame boundary, changes nothing but `fr_event` and
`fr_param` (R99). -/
def Obligations.ResponseBytesAreIgnored : Prop :=
  ∀ (s : State) (b : Byte), b ∈ [0xE0, 0xF0, 0xF1, 0x20, 0x70] → Receives s b → FrameBoundary s →
    ByteEffect s (fun u => { u with frame := recordedFrame s.frame b })

/-- A load-start header received at a frame boundary latches the target comparison with the node ID before the edge,
clears the Inbound Frame and, if addressed, `dataReady` (R121, R122, R27); all else is as without it. -/
def Obligations.LoadHeaderOpensAFrame : Prop :=
  ∀ (s : State) (b : Byte), Receives s b → FrameBoundary s → headerEvent b = 1 →
    ByteEffect s (fun u => { u with
      frame := { s.frame with
        state := .lenHi, event := 1, param := headerParam b, len := 0, count := 0, csum := 0,
        matched := decide (headerParam b = s.nodeid), oversize := false }
      flags := { u.flags with dataReady := if headerParam b = s.nodeid then false else s.flags.dataReady } })

/-- R123 and R124: the length is assembled big-endian; the oversize test is a floor division, so 1802 is in capacity and
1803 is not; a length of 0 goes straight to `CHECK`. Nothing else is changed by the two bytes. -/
def Obligations.LengthBytesAreAssembled : Prop :=
  ∀ (s : State) (b : Byte), Receives s b →
    (s.frame.state = .lenHi → ByteEffect s (fun u => { u with
      frame := { s.frame with state := .lenLo, len := b ++ lowByte s.frame.len } })) ∧
    (s.frame.state = .lenLo → ∀ L : Half, L = highByte s.frame.len ++ b → ByteEffect s (fun u => { u with
      frame := { s.frame with
        len := L
        oversize := decide (Config.maxNotes < L.toNat / 3)
        state := if L = 0 then .check else .payload } })) ∧
    (∀ L : Half, Config.maxNotes < L.toNat / 3 ↔ 1803 ≤ L.toNat)

/-- R126, accepted: the byte is XORed into the checksum, counted and put in its place of its triple; the third byte of a
triple writes the whole entry to slot `k div 3`, which is inside the buffer, and every other entry stays. -/
def Obligations.AcceptedPayloadByteIsStored : Prop :=
  ∀ (s : State) (b : Byte), Receives s b → FrameInv s.frame → s.frame.state = .payload →
    s.frame.matched = true → s.frame.oversize = false →
    ∀ k : Nat, k = s.frame.count.toNat → (k % 3 = 2 → k / 3 < Config.maxNotes) ∧
      ∃ u t, step (withoutByte s) = .next u ∧ step s = .next t ∧
        t = { u with
          sb := t.sb
          frame := { s.frame with
            csum := s.frame.csum ^^^ b
            stagePitch := if k % 3 = 0 then b else s.frame.stagePitch
            stageDhi := if k % 3 = 1 then b else s.frame.stageDhi
            count := s.frame.count + 1
            state := if s.frame.count + 1 = s.frame.len then .check else .payload } } ∧
        ∀ a, t.sbRead a = if k % 3 = 2 ∧ a = k / 3
          then some ⟨s.frame.stagePitch, s.frame.stageDhi ++ b⟩ else s.sbRead a

/-- R126, not accepted: a payload byte for another node or of an oversize frame is only counted. -/
def Obligations.DiscardedPayloadByteIsCounted : Prop :=
  ∀ (s : State) (b : Byte), Receives s b → s.frame.state = .payload →
    (s.frame.matched = false ∨ s.frame.oversize = true) →
    ByteEffect s (fun u => { u with
      frame := { s.frame with
        count := s.frame.count + 1
        state := if s.frame.count + 1 = s.frame.len then .check else .payload } })

/-- R127, R128 and R247: an addressing mismatch suppresses every response; else an oversize length gives 0xF1 whatever
the check byte; else the check byte decides between 0xE0 with `dataReady = 1` and 0xF0 with `dataReady = 0`. The frame is
complete, and the queued byte wins over one the sequencer queues in the same cycle (R246). -/
def Obligations.CheckByteDecidesTheFrame : Prop :=
  ∀ (s : State) (b : Byte), Receives s b → s.frame.state = .check →
    (s.frame.matched = false →
      ByteEffect s (fun u => { u with frame := clearedFrame s.frame })) ∧
    (s.frame.matched = true → s.frame.oversize = true → ByteEffect s (fun u => { u with
      frame := clearedFrame s.frame
      flags := { u.flags with sendResponse := true, responseData := 0xF1 } })) ∧
    (s.frame.matched = true → s.frame.oversize = false → b = s.frame.csum → ByteEffect s (fun u => { u with
      frame := clearedFrame s.frame
      flags := { u.flags with dataReady := true, sendResponse := true, responseData := 0xE0 } })) ∧
    (s.frame.matched = true → s.frame.oversize = false → b ≠ s.frame.csum → ByteEffect s (fun u => { u with
      frame := clearedFrame s.frame
      flags := { u.flags with dataReady := false, sendResponse := true, responseData := 0xF0 } }))

/-- In a cycle with `rx_valid = 0` no `fr_*` register changes (R120), and neither do the Song Buffer and `dataReady`. -/
def Obligations.NoByteNoFrameChange : Prop :=
  ∀ s : State, ReceivesNothing s → ∃ t, step s = .next t ∧
    t.frame = s.frame ∧ t.sb = s.sb ∧ t.flags.dataReady = s.flags.dataReady

/-! ## Whole load frames -/

/-- R131: a load frame consumes exactly `4 + L` received bytes whatever its target and its length, however its bytes are
spaced. Of the states along the run, those at a frame boundary are exactly those after none or after all `4 + L` of its
bytes, and after all of them nothing of the frame is left in the receiver. Buttons, `tx_done` and the sequencer do as
they will. -/
def Obligations.LoadFrameKeepsByteSync : Prop :=
  ∀ (f : LoadFrame) (s : State) (ins : List CycleInput) (k : Nat), f.wellFormed = true → FrameBoundary s →
    NoReset ins → Delivers ins f.bytes → ∃ t, RunsTo s (ins.take k) t ∧
      (FrameBoundary t ↔
        (bytesOf (ins.take k)).length = 0 ∨ (bytesOf (ins.take k)).length = 4 + f.payload.length) ∧
      ((bytesOf (ins.take k)).length = 4 + f.payload.length → FrameInv t.frame)

/-- R130: the outcome of one complete load frame, however its bytes are spaced, at the edge of its check byte's cycle: by
its target beside the node ID in the header's cycle (`u` is the state before that cycle, R122), its length and its check
byte. A frame for another node changes neither the Song Buffer nor `dataReady` and queues nothing: but for the Inbound
Frame the run ends as the same cycles without the bytes would. -/
def Obligations.LoadFrameOutcome : Prop :=
  ∀ (f : LoadFrame) (s : State) (ins : List CycleInput), f.wellFormed = true → FrameBoundary s →
    NoReset ins → Delivers ins f.bytes → EndsOnByte ins →
    ∃ u t, RunsTo s (beforeFirstByte ins) u ∧ RunsTo s ins t ∧
      (f.target ≠ u.nodeid → t.sb = s.sb ∧ t.flags.dataReady = s.flags.dataReady ∧
        RunsTo s (withoutBytes ins) { t with frame := s.frame }) ∧
      (f.target = u.nodeid → Config.maxNotes < f.payload.length / 3 →
        t.sb = s.sb ∧ t.flags.dataReady = false ∧ t.flags.sendResponse = true ∧ t.flags.responseData = 0xF1) ∧
      (f.target = u.nodeid → f.payload.length / 3 ≤ Config.maxNotes → f.check = xorAll f.payload →
        HoldsTriples s t f.payload ∧ t.flags.dataReady = true ∧ t.flags.sendResponse = true ∧
          t.flags.responseData = 0xE0) ∧
      (f.target = u.nodeid → f.payload.length / 3 ≤ Config.maxNotes → f.check ≠ xorAll f.payload →
        HoldsTriples s t f.payload ∧ t.flags.dataReady = false ∧ t.flags.sendResponse = true ∧
          t.flags.responseData = 0xF0)

/-- A song of at most `MAX_NOTES` entries, loaded by the frame that R104 spells for it and for the node ID the node has
when the header comes, stands in the Song Buffer in its order and is acknowledged with 0xE0, however the bytes are spaced
(95_test_vectors.md S1). -/
def Obligations.LoadedSongIsTheSongSent : Prop :=
  ∀ (song : List NoteEntry) (s u : State) (ins : List CycleInput), song.length ≤ Config.maxNotes → FrameBoundary s →
    NoReset ins → RunsTo s (beforeFirstByte ins) u → Delivers ins (LoadFrame.ofEntries u.nodeid song).bytes →
    EndsOnByte ins → ∃ t, RunsTo s ins t ∧
      (∀ j, j < song.length → t.sbRead j = song[j]?) ∧
      t.flags.dataReady = true ∧ t.flags.sendResponse = true ∧ t.flags.responseData = 0xE0

/-- Two nodes that agree on `fr_state`, `fr_len` and `fr_count` and see the same byte, or none, agree again after the
cycle, whatever their node IDs, buffers, sequencers and buttons: nothing else reaches the bus synchronisation (R131). -/
def Obligations.ByteSyncIsTheSameOnEveryNode : Prop :=
  ∀ s s' t t' : State, Active s → Active s' → s.currentInput.rx = s'.currentInput.rx →
    s.frame.state = s'.frame.state → s.frame.len = s'.frame.len → s.frame.count = s'.frame.count →
    step s = .next t → step s' = .next t' →
    t.frame.state = t'.frame.state ∧ t.frame.len = t'.frame.len ∧ t.frame.count = t'.frame.count

/-! ## The sequencer and the timer, cycle by cycle -/

/-- With no byte received, a sequencer that is stopped, blocked on a barrier or faulted does nothing (R180), and the
flags it writes stay. -/
def Obligations.DisabledSequencerDoesNothing : Prop :=
  ∀ s : State, ReceivesNothing s → s.seq.state = .fault ∨ (s.seq.state = .idle ∧
      (s.flags.isMusicPlaying = false ∨ s.flags.isWaitingForSync = true)) →
    ∃ t, step s = .next t ∧ t.seq = s.seq ∧ t.faults = s.faults ∧
      t.flags.isMusicPlaying = s.flags.isMusicPlaying ∧ t.flags.isWaitingForSync = s.flags.isWaitingForSync ∧
      t.flags.sendResponse = (s.flags.sendResponse && s.flags.uartBusy) ∧ t.flags.responseData = s.flags.responseData

/-- R183 and R185: a tone or rest in progress counts down, and in its last cycle advances the cursor from the value it
has then; a tone's last cycle disables the timer. No received byte other than a command changes that. -/
def Obligations.EntryInProgressCountsDown : Prop :=
  ∀ s : State, ReceivesNothing s → s.seq.state = .tone ∨ s.seq.state = .rest →
    ∃ t, step s = .next t ∧ t.faults = s.faults ∧ t.sb = s.sb ∧ t.frame = s.frame ∧
      t.flags.isMusicPlaying = s.flags.isMusicPlaying ∧ t.flags.isWaitingForSync = s.flags.isWaitingForSync ∧
      (1 < s.seq.wait → t.seq = { s.seq with wait := s.seq.wait - 1 } ∧ t.timer.en = s.timer.en) ∧
      (s.seq.wait ≤ 1 → t.seq = { s.seq with pos := s.seq.pos + 1, state := .idle } ∧
        t.timer.en = (if s.seq.state = .tone then false else s.timer.en))

/-- The dispatch cycle of TONE and REST with a duration above zero, in a whole cycle with no byte received (R182, R184):
the tone latches its reload and countdown; the rest leaves the timer. Both leave the flags, the memories and `pos`. The
reload is R65's `ROM(p)`, whose high and low byte are the spec's own reading (G2, log entry 11). -/
def Obligations.TimedEntryIsLatchedAtDispatch : Prop :=
  ∀ (s : State) (e : NoteEntry), ReceivesNothing s → Dispatches s e → s.timer.en = false → e.duration ≠ 0 →
    (e.pitch.toNat ≤ 127 → ∃ t, step s = .next t ∧
      t.seq = { s.seq with wait := e.duration.toNat * Config.unitCycles, state := .tone } ∧
      t.timer = { s.timer with reload := romReload (e.pitch.setWidth 7), count := romReload (e.pitch.setWidth 7),
                               presc := 0, en := true } ∧
      t.flags.isMusicPlaying = true ∧ t.flags.isWaitingForSync = false ∧ t.frame = s.frame ∧ t.sb = s.sb ∧
      t.faults = s.faults) ∧
    (e.pitch = 255 → ∃ t, step s = .next t ∧
      t.seq = { s.seq with wait := e.duration.toNat * Config.unitCycles, state := .rest } ∧ t.timer = s.timer ∧
      t.flags.isMusicPlaying = true ∧ t.flags.isWaitingForSync = false ∧ t.frame = s.frame ∧ t.sb = s.sb ∧
      t.faults = s.faults)

/-- The cycle of an END or a SYNC with no byte received (R186, R187, R198): what the sequencer leaves in the flags, with
the drain of a pending response in the same cycle (R246): a byte queued by the coordinator wins over the drain's clear. -/
def Obligations.EndAndSyncCycle : Prop :=
  ∀ (s : State) (e : NoteEntry), ReceivesNothing s → Dispatches s e →
    (e.pitch = 254 → ∃ t, step s = .next t ∧ t.seq = { s.seq with pos := 0 } ∧
      t.flags.isMusicPlaying = false ∧ t.flags.isWaitingForSync = false ∧ t.frame = s.frame ∧ t.sb = s.sb ∧
      t.faults = s.faults ∧
      t.flags.sendResponse = (decide (s.nodeid = 0) || (s.flags.sendResponse && s.flags.uartBusy)) ∧
      t.flags.responseData = (if s.nodeid = 0 then 0x20 else s.flags.responseData)) ∧
    (e.pitch = 253 → ∃ t, step s = .next t ∧ t.seq = { s.seq with pos := s.seq.pos + 1 } ∧
      t.flags.isMusicPlaying = true ∧ t.flags.isWaitingForSync = true ∧ t.frame = s.frame ∧ t.sb = s.sb ∧
      t.faults = s.faults ∧
      t.flags.sendResponse = (decide (s.nodeid = 0) || (s.flags.sendResponse && s.flags.uartBusy)) ∧
      t.flags.responseData = (if s.nodeid = 0 then 0x70 else s.flags.responseData))

/-- R189 and R190, and R188 at a dispatch: a cursor at or past `MAX_NOTES`, an entry never written and a pitch 128..252
each record their fault and stop the sequencer, a byte received in the same cycle notwithstanding (R248). In a cycle with
no byte, and with the timer disabled as in every dispatch that a run reaches (R244), the faulting dispatch writes nothing
else: `pos` keeps the index of the entry that faulted (R243), and only the drain of a pending response and `tx_done`
change a flag. -/
def Obligations.UndefinedDispatchRaisesItsFault : Prop :=
  ∀ s : State, Active s → SequencerEnabled s → FrameInv s.frame → ∃ t, step s = .next t ∧
    (Config.maxNotes ≤ s.seq.pos.toNat →
      t.faults = { s.faults with cursorOverrun := true } ∧ t.seq.state = .fault) ∧
    (s.seq.pos.toNat < Config.maxNotes → s.written s.seq.pos.toNat = false →
      t.faults = { s.faults with unwrittenEntry := true } ∧ t.seq.state = .fault) ∧
    (∀ e, s.seq.pos.toNat < Config.maxNotes → s.sbRead s.seq.pos.toNat = some e →
      128 ≤ e.pitch.toNat → e.pitch.toNat ≤ 252 →
      t.faults = { s.faults with invalidPitch := true } ∧ t.seq.state = .fault) ∧
    (FaultsAtDispatch s → s.currentInput.rx = none → s.timer.en = false →
      t.seq = { s.seq with state := .fault } ∧ t.timer = s.timer ∧ t.frame = s.frame ∧ t.sb = s.sb ∧
      t.nodeid = s.nodeid ∧ t.flags.isMusicPlaying = s.flags.isMusicPlaying ∧
      t.flags.isWaitingForSync = s.flags.isWaitingForSync ∧ t.flags.dataReady = s.flags.dataReady ∧
      t.flags.responseData = s.flags.responseData ∧
      t.flags.sendResponse = (s.flags.sendResponse && s.flags.uartBusy))

/-- Faults are sticky, and `S_FAULT` is left only by reset (R47, R244). -/
def Obligations.FaultsLastUntilReset : Prop :=
  ∀ s t : State, Active s → step s = .next t →
    (∀ f : ModelFault, s.faults.has f = true → t.faults.has f = true) ∧
    (s.seq.state = .fault → t.seq.state = .fault ∧ t.faults = s.faults ∧ t.seq.wait = s.seq.wait)

/-- R191's pseudocode: with `tmr_en = 1` the timer counts once every `TIMER_DIV` cycles, and after 0xFFFF it reloads and toggles
`buzz`; with `tmr_en = 0` nothing of it changes. A dispatch (R182) is left out. Bytes, buttons and `tx_done` do not
reach the timer. The up-count and the reload at overflow are the spec's own reading and no word of the source: R191 says
"The up-count and the reload at overflow are this spec's hardware reading of it [from general knowledge, not in source: ...]"
(G1 of 93_implementation_defined.md, log entry 11). -/
def Obligations.ToneTimerCounts : Prop :=
  ∀ s t : State, Active s → step s = .next t → ¬ SequencerEnabled s →
    t.timer.reload = s.timer.reload ∧
    (s.timer.en = true → s.timer.presc = Config.timerDiv - 1 → s.timer.count = 0xFFFF →
      t.timer.presc = 0 ∧ t.timer.count = s.timer.reload ∧ t.timer.buzz = !s.timer.buzz) ∧
    (s.timer.en = true → s.timer.presc = Config.timerDiv - 1 → s.timer.count ≠ 0xFFFF →
      t.timer.presc = 0 ∧ t.timer.count = s.timer.count + 1 ∧ t.timer.buzz = s.timer.buzz) ∧
    (s.timer.en = true → s.timer.presc ≠ Config.timerDiv - 1 →
      t.timer.presc = s.timer.presc + 1 ∧ t.timer.count = s.timer.count ∧ t.timer.buzz = s.timer.buzz) ∧
    (s.timer.en = false →
      t.timer.presc = s.timer.presc ∧ t.timer.count = s.timer.count ∧ t.timer.buzz = s.timer.buzz)

/-- R193: with `tmr_en = 0` the buzzer holds its last level in any cycle that is no reset cycle, and `tmr_en` is 0 in every
state of the invariant with no tone in progress: between tones, during rests, while stopped, after reset. -/
def Obligations.SilentBuzzerHoldsItsLevel : Prop :=
  ∀ s t : State, Active s → step s = .next t → s.timer.en = false ∨ (Inv s ∧ s.seq.state ≠ .tone) →
    t.timer.buzz = s.timer.buzz

/-- R197: the sequencer never writes the Song Buffer, and nothing it does depends on an Inbound Frame register. -/
def Obligations.SequencerIgnoresTheFrameReceiver : Prop :=
  ∀ (s : State) (f : InboundFrame), ∃ t, sequencerCycle s = .next t ∧ t.sb = s.sb ∧
    sequencerCycle { s with frame := f } = .next { t with frame := f }

/-! ## The sequencer over many cycles -/

/-- R194: a TONE or REST of duration `d > 0` is in progress after each of the `d * UNIT_CYCLES` cycles from its dispatch
on and over after the next; the timer is enabled for exactly these cycles of a tone. TONE or REST with `d = 0`, END and
SYNC take the one dispatch cycle. Bytes, commands among them, and buttons do not change that. -/
def Obligations.EntriesTakeTheirDuration : Prop :=
  ∀ (s : State) (e : NoteEntry) (ins : List CycleInput), Inv s → Dispatches s e → NoReset ins →
    (e.duration ≠ 0 → 1 ≤ ins.length → ins.length ≤ e.duration.toNat * Config.unitCycles →
      (e.pitch.toNat ≤ 127 → ∃ t, RunsTo s ins t ∧ t.seq.state = .tone ∧ t.timer.en = true) ∧
      (e.pitch = 255 → ∃ t, RunsTo s ins t ∧ t.seq.state = .rest ∧ t.timer.en = false)) ∧
    (e.duration ≠ 0 → ins.length = e.duration.toNat * Config.unitCycles + 1 →
      e.pitch.toNat ≤ 127 ∨ e.pitch = 255 →
      ∃ t, RunsTo s ins t ∧ t.seq.state = .idle ∧ t.timer.en = false ∧
        (NoBytes ins → t.seq.pos = s.seq.pos + 1)) ∧
    (ins.length = 1 →
      ((e.pitch.toNat ≤ 127 ∨ e.pitch = 255) ∧ e.duration = 0) ∨ e.pitch = 254 ∨ e.pitch = 253 →
      ∃ t, RunsTo s ins t ∧ t.seq.state = .idle ∧ t.timer.en = false)

/-- The tone's square wave (R192): `m` cycles after the dispatch cycle of a tone with reload `R` the buzzer has toggled
once for every full `TIMER_DIV * (65536 - R)` cycles, up to the tone's last cycle. It rests on the up-count and the reload
at overflow, and on the reload's high and low byte, which are the spec's own reading from general knowledge (R191, R65; G1
and G2 of 93_implementation_defined.md, log entry 11). -/
def Obligations.ToneTogglesTheBuzzer : Prop :=
  ∀ (s : State) (e : NoteEntry) (ins : List CycleInput) (m : Nat), Inv s → Dispatches s e → NoReset ins →
    e.pitch.toNat ≤ 127 → e.duration ≠ 0 → ins.length = m + 1 → m ≤ e.duration.toNat * Config.unitCycles →
    ∃ t, RunsTo s ins t ∧
      t.timer.buzz = (s.timer.buzz ^^
        decide ((m / (Config.timerDiv * (65536 - (romReload (e.pitch.setWidth 7)).toNat))) % 2 = 1))

/-- R195: a start or stop that the node obeys does not end the entry in progress; the entry runs to its last cycle and
then advances the cursor from the value it has then, so it leaves 1, or 0 if the command came in the last cycle. -/
def Obligations.CommandDoesNotCutTheEntry : Prop :=
  ∀ (s : State) (b : Byte) (i : CycleInput) (rest : List CycleInput), Inv s → FrameBoundary s →
    s.seq.state = .tone ∨ s.seq.state = .rest → ObeyedCommand s b →
    NoReset (i :: rest) → i.rx = some b → NoBytes rest → (i :: rest).length = s.seq.wait →
    (∀ k, 1 ≤ k → k < s.seq.wait → ∃ t, RunsTo s ((i :: rest).take k) t ∧ t.seq.state = s.seq.state ∧ t.seq.pos = 0) ∧
    (∃ t, RunsTo s (i :: rest) t ∧ t.seq.state = .idle ∧ t.seq.pos = (if s.seq.wait = 1 then 0 else 1) ∧
      t.flags.isMusicPlaying = decide (headerEvent b = 3 ∨ headerEvent b = 5) ∧ t.flags.isWaitingForSync = false)

/-- A barrier at entry `k` holds the node until a sync acknowledgement comes, and then the sequencer is enabled at entry
`k + 1` (R187, R196), with no other byte in between. -/
def Obligations.SyncAckResumesAfterTheBarrier : Prop :=
  ∀ (s : State) (e : NoteEntry) (b : Byte) (held : List CycleInput) (ack : CycleInput),
    Inv s → FrameBoundary s → Dispatches s e → e.pitch = 253 → held ≠ [] → NoReset (held ++ [ack]) → NoBytes held →
    ack.rx = some b → headerEvent b = 8 →
    (∃ t, RunsTo s held t ∧ t.flags.isWaitingForSync = true ∧ t.flags.isMusicPlaying = true ∧
      t.seq = { s.seq with pos := s.seq.pos + 1 }) ∧
    (∃ t, RunsTo s (held ++ [ack]) t ∧ SequencerEnabled t ∧ t.seq.pos = s.seq.pos + 1)

/-! ## The node ID, the response slot and the outputs -/

/-- R221, R222 and R223: one button alone, while not playing, moves the node ID by one modulo 16 and writes the new value
to address 0 of the store in the same cycle; both buttons, no button or a playing node change and write nothing. -/
def Obligations.ButtonsMoveTheNodeId : Prop :=
  ∀ s t : State, Active s → step s = .next t →
    (s.currentInput.btnInc = true → s.currentInput.btnDec = false → s.flags.isMusicPlaying = false →
      t.nodeid.toNat = (s.nodeid.toNat + 1) % 16 ∧ t.out.nv = some (0, t.nodeid.setWidth 8)) ∧
    (s.currentInput.btnDec = true → s.currentInput.btnInc = false → s.flags.isMusicPlaying = false →
      t.nodeid.toNat = (s.nodeid.toNat + 15) % 16 ∧ t.out.nv = some (0, t.nodeid.setWidth 8)) ∧
    (s.flags.isMusicPlaying = true ∨ s.currentInput.btnInc = s.currentInput.btnDec →
      t.nodeid = s.nodeid ∧ t.out.nv = none)

/-- R220 and R224 over every cycle of the whole machine: outside reset the node ID changes exactly by an accepted button
pulse, every change is written to the store in the same cycle, and nothing else is ever written there. -/
def Obligations.NodeIdAndStoreChangeTogether : Prop :=
  ∀ s t : State, step s = .next t →
    (Active s →
      (t.nodeid ≠ s.nodeid ↔
        s.flags.isMusicPlaying = false ∧ s.currentInput.btnInc ≠ s.currentInput.btnDec) ∧
      (t.nodeid ≠ s.nodeid → t.out.nv = some (Config.nvNodeIdAddr, t.nodeid.setWidth 8)) ∧
      (t.nodeid = s.nodeid → t.out.nv = none)) ∧
    (¬ Active s → t.out.nv = none)

/-- The response drain and `tx_done` (R226, R227): the transmitter takes the pending byte exactly when a response is
pending and the UART is free; the drain's set of `uartBusy` wins over `tx_done`. Where nothing can queue a byte in the
cycle, the pending byte is gone when taken and stays when not. -/
def Obligations.TransmitterDrainsTheSlot : Prop :=
  ∀ s t : State, Active s → step s = .next t →
    t.out.tx = (if s.flags.sendResponse = true ∧ s.flags.uartBusy = false
      then some s.flags.responseData else none) ∧
    t.flags.uartBusy = (if s.flags.sendResponse = true ∧ s.flags.uartBusy = false then true
      else if s.currentInput.txDone = true then false else s.flags.uartBusy) ∧
    (¬ SequencerEnabled s → s.currentInput.rx = none ∨ s.frame.state ≠ .check →
      t.flags.sendResponse = (s.flags.sendResponse && s.flags.uartBusy) ∧
      t.flags.responseData = s.flags.responseData)

/-- The second sentence of R167, over every cycle of the whole machine: a response is pending after a cycle that did not
merely keep one from before (none was pending, or it drained), or the pending byte changes, only by the check byte of a
frame addressed to this node or by an END or a SYNC dispatched on node 0. -/
def Obligations.OnlyThreeRulesQueueResponses : Prop :=
  ∀ s t : State, Active s → step s = .next t →
    (t.flags.sendResponse = true ∧ ¬ (s.flags.sendResponse = true ∧ s.flags.uartBusy = true)) ∨
      t.flags.responseData ≠ s.flags.responseData →
    (s.frame.state = .check ∧ s.frame.matched = true ∧ s.currentInput.rx ≠ none) ∨
    (∃ e, Dispatches s e ∧ (e.pitch = 254 ∨ e.pitch = 253) ∧ s.nodeid = 0)

/-! ## Memory -/

/-- `SBWrite` at an index below `MAX_NOTES` writes one whole entry, and every other index reads as before; nothing but
the Song Buffer changes (R63, R64). Two clauses are the model's choice and no rule of the spec: the canonical form of the
list, which is kept (log entry 5), and the stop `songBufferIndex` at or above `MAX_NOTES`, where R63 defines no write (log
entry 9). -/
def Obligations.SongBufferWriteThenRead : Prop :=
  ∀ (s : State) (i : Nat) (e : NoteEntry),
    (i < Config.maxNotes → ∃ t, s.sbWrite i e = .next t ∧ t = { s with sb := t.sb } ∧
      (∀ a, t.sbRead a = if a = i then some e else s.sbRead a) ∧
      (∀ a, t.written a = (decide (a = i) || s.written a)) ∧
      (SongBuffer.wf s.sb = true → SongBuffer.wf t.sb = true)) ∧
    (Config.maxNotes ≤ i → s.sbWrite i e = .fault .songBufferIndex)

/-- R82 and the last sentence of R62, over every cycle: an entry of the Song Buffer changes only by the third byte of a
complete triple of an accepted frame, in that triple's slot, which is below `fr_len div 3`, at most `MAX_NOTES`. -/
def Obligations.OnlyAcceptedTriplesWriteTheBuffer : Prop :=
  ∀ (s t : State) (a : Nat), Inv s → Active s → step s = .next t → t.sbRead a ≠ s.sbRead a →
    s.frame.state = .payload ∧ s.frame.matched = true ∧ s.frame.oversize = false ∧
    s.frame.count.toNat % 3 = 2 ∧ a = s.frame.count.toNat / 3 ∧ a < s.frame.len.toNat / 3 ∧
    s.frame.len.toNat / 3 ≤ Config.maxNotes ∧
    s.currentInput.rx ≠ none

/-! ## Reset -/

/-- R270, with the values of R271 and R272: in a cycle with `rst = 1` every register takes its reset value whatever the
state and the other inputs, nothing is driven, and the node ID is the store's byte if it is at most 15, else 0. -/
def Obligations.ResetCycleResetsEveryRegister : Prop :=
  ∀ s : State, s.currentInput.rst = true → ∃ t, step s = .next t ∧
    t.frame = ⟨.idle, 0, 0, 0, 0, 0, false, false, 0, 0⟩ ∧
    t.flags = ⟨false, false, false, false, 0x00, false⟩ ∧
    t.nodeid.toNat = (if s.currentInput.nvBoot.toNat ≤ 15 then s.currentInput.nvBoot.toNat else 0) ∧
    t.seq = ⟨0, .idle, 0⟩ ∧ t.timer = ⟨false, 0, 0, 0, false⟩ ∧ (∀ i, t.written i = false) ∧
    Faultless t ∧ t.out = ⟨none, none⟩

/-- The state after reset (R271): every register at the value R271 gives, the mode `Configuring`, and quiescent. The
empty schedule and the undriven outputs are the model's own (log entries 1 and 2). -/
def Obligations.ResetStateIsQuiescent : Prop :=
  State.reset.frame = ⟨.idle, 0, 0, 0, 0, 0, false, false, 0, 0⟩ ∧
  State.reset.flags = ⟨false, false, false, false, 0x00, false⟩ ∧
  State.reset.nodeid.toNat = (if Config.nvBootValue.toNat ≤ 15 then Config.nvBootValue.toNat else 0) ∧
  State.reset.seq = ⟨0, .idle, 0⟩ ∧ State.reset.timer = ⟨false, 0, 0, 0, false⟩ ∧
  (∀ i, State.reset.written i = false) ∧ Faultless State.reset ∧ mode State.reset = .configuring ∧
  Quiescent State.reset

/-! ## Invariants of the whole machine -/

/-- The invariant holds after any reset, whatever byte the store gave and whatever is to come. Its clause on the Song
Buffer's canonical form (strictly rising indices) is the model's choice and no rule of the spec (log entry 5). -/
def Obligations.InvariantAfterReset : Prop :=
  ∀ (stored : Byte) (ins : List CycleInput), Inv (State.resetWith stored ins)

/-- Every step from every state that meets the invariant gives a state that meets it. Its clause on the Song Buffer's
canonical form (strictly rising indices) is the model's choice and no rule of the spec (log entry 5). -/
def Obligations.EveryStepKeepsTheInvariant : Prop :=
  ∀ s t : State, Inv s → step s = .next t → Inv t

/-- No error is fatal (R240, R243): from a state that meets the invariant every cycle, whatever its inputs, gives a next
state. -/
def Obligations.TheBlockNeverStops : Prop :=
  ∀ s : State, Inv s → ∃ t, step s = .next t

/-- R49: in every reachable state `isWaitingForSync = 1` implies `isMusicPlaying = 1`. -/
def Obligations.ReachableWaitingImpliesPlaying : Prop :=
  ∀ s : State, Reachable s → s.flags.isWaitingForSync = true → s.flags.isMusicPlaying = true

/-- In every reachable state the count of payload bytes is at most the declared length, the cursor is at most
`MAX_NOTES`, the timer is enabled exactly in `S_TONE`, and the prescaler is below `TIMER_DIV` (R25, R37, R40, R43).
That the Song Buffer has its canonical form, strictly rising indices below `MAX_NOTES`, is the model's choice: R82 gives
only that no index is at or above `MAX_NOTES`, and the strictly rising list is log entry 5. -/
def Obligations.ReachableStatesAreBounded : Prop :=
  ∀ s : State, Reachable s →
    s.frame.count.toNat ≤ s.frame.len.toNat ∧ s.seq.pos.toNat ≤ Config.maxNotes ∧
    (s.timer.en = true ↔ s.seq.state = .tone) ∧ s.timer.presc < Config.timerDiv ∧ SongBuffer.wf s.sb = true

/-- From a quiescent state that meets the invariant, a cycle with no input changes no register and drives nothing
(R282). -/
def Obligations.QuiescenceLasts : Prop :=
  ∀ s : State, Inv s → Quiescent s → ReceivesNothing s → s.currentInput.txDone = false →
    s.currentInput.btnInc = false → s.currentInput.btnDec = false →
    ∃ t, step s = .next t ∧ SameRegisters s t ∧ Quiescent t ∧ t.out = ⟨none, none⟩
end

