-- ==== Sys2Proof/Laws/Decode.lean ====
section
/-! SUPPORT. The small lemmas of the fields and words of Decode.lean. -/

namespace Sys2Proof

@[simp] theorem headerEvent_headerByte : ∀ e n : Nibble, headerEvent (headerByte e n) = e := by decide
@[simp] theorem headerParam_headerByte : ∀ e n : Nibble, headerParam (headerByte e n) = n := by decide
@[simp] theorem headerByte_fields : ∀ b : Byte, headerByte (headerEvent b) (headerParam b) = b := by decide

/-- A note word as a number. -/
theorem noteWord_toNat (p : Byte) (d : Half) : (noteWord p d).toNat = p.toNat * 65536 + d.toNat := by
  have h : (noteWord p d).toNat = p.toNat <<< 16 ||| d.toNat := BitVec.toNat_append p d
  rw [h, ← Nat.shiftLeft_add_eq_or_of_lt d.isLt, Nat.shiftLeft_eq]

theorem notePitch_toNat (w : BitVec 24) : (notePitch w).toNat = w.toNat / 65536 := by
  have := w.isLt
  simp only [notePitch, BitVec.extractLsb'_toNat, Nat.shiftRight_eq_div_pow]
  omega

theorem noteDuration_toNat (w : BitVec 24) : (noteDuration w).toNat = w.toNat % 65536 := by
  simp [noteDuration, BitVec.extractLsb'_toNat]

@[simp] theorem notePitch_noteWord (p : Byte) (d : Half) : notePitch (noteWord p d) = p := by
  apply BitVec.eq_of_toNat_eq
  rw [notePitch_toNat, noteWord_toNat]
  have := d.isLt
  omega

@[simp] theorem noteDuration_noteWord (p : Byte) (d : Half) : noteDuration (noteWord p d) = d := by
  apply BitVec.eq_of_toNat_eq
  rw [noteDuration_toNat, noteWord_toNat]
  have := d.isLt
  omega

@[simp] theorem noteWord_fields (w : BitVec 24) : noteWord (notePitch w) (noteDuration w) = w := by
  apply BitVec.eq_of_toNat_eq
  rw [noteWord_toNat, notePitch_toNat, noteDuration_toNat]
  omega

/-- A big-endian value as a number. -/
theorem bigEndian_toNat (hi lo : Byte) : (bigEndian hi lo).toNat = hi.toNat * 256 + lo.toNat := by
  have h : (bigEndian hi lo).toNat = hi.toNat <<< 8 ||| lo.toNat := BitVec.toNat_append hi lo
  rw [h, ← Nat.shiftLeft_add_eq_or_of_lt lo.isLt, Nat.shiftLeft_eq]

theorem highByte_toNat (v : Half) : (highByte v).toNat = v.toNat / 256 := by
  have := v.isLt
  simp only [highByte, BitVec.extractLsb'_toNat, Nat.shiftRight_eq_div_pow]
  omega

theorem lowByte_toNat (v : Half) : (lowByte v).toNat = v.toNat % 256 := by
  simp [lowByte, BitVec.extractLsb'_toNat]

@[simp] theorem bigEndian_bytes (v : Half) : bigEndian (highByte v) (lowByte v) = v := by
  apply BitVec.eq_of_toNat_eq
  rw [bigEndian_toNat, highByte_toNat, lowByte_toNat]
  omega

@[simp] theorem highByte_bigEndian (hi lo : Byte) : highByte (bigEndian hi lo) = hi := by
  apply BitVec.eq_of_toNat_eq
  rw [highByte_toNat, bigEndian_toNat]
  have := lo.isLt
  omega

@[simp] theorem lowByte_bigEndian (hi lo : Byte) : lowByte (bigEndian hi lo) = lo := by
  apply BitVec.eq_of_toNat_eq
  rw [lowByte_toNat, bigEndian_toNat]
  have := lo.isLt
  omega

@[simp] theorem noteEntry_bits_pitch (e : NoteEntry) : notePitch e.bits = e.pitch := notePitch_noteWord _ _
@[simp] theorem noteEntry_bits_duration (e : NoteEntry) : noteDuration e.bits = e.duration := noteDuration_noteWord _ _
@[simp] theorem noteEntry_ofBits_bits (e : NoteEntry) : NoteEntry.ofBits e.bits = e := by
  simp [NoteEntry.ofBits]
@[simp] theorem noteEntry_bits_ofBits (w : BitVec 24) : (NoteEntry.ofBits w).bits = w := noteWord_fields w

/-- The exclusive-OR of bytes one by one from any start. -/
theorem foldl_xor (bytes : List Byte) (x : Byte) :
    bytes.foldl (fun y b => y ^^^ b) x = x ^^^ xorAll bytes := by
  induction bytes generalizing x with
  | nil => simp [xorAll]
  | cons b rest ih =>
    have h : xorAll (b :: rest) = (0 ^^^ b) ^^^ xorAll rest := ih (0 ^^^ b)
    rw [List.foldl_cons, ih, h, BitVec.xor_assoc, show (0 : Byte) ^^^ b = b from BitVec.zero_xor]

@[simp] theorem xorAll_nil : xorAll [] = 0 := rfl

theorem xorAll_cons (b : Byte) (rest : List Byte) : xorAll (b :: rest) = b ^^^ xorAll rest := by
  have h : xorAll (b :: rest) = (0 ^^^ b) ^^^ xorAll rest := foldl_xor rest (0 ^^^ b)
  rw [h, show (0 : Byte) ^^^ b = b from BitVec.zero_xor]

theorem xorAll_append (xs ys : List Byte) : xorAll (xs ++ ys) = xorAll xs ^^^ xorAll ys := by
  have h : xorAll (xs ++ ys) = ys.foldl (fun y b => y ^^^ b) (xorAll xs) := List.foldl_append
  rw [h, foldl_xor]

/-- A frame's bytes. -/
theorem loadFrame_bytes_length (f : LoadFrame) : f.bytes.length = 4 + f.payload.length := by
  simp [LoadFrame.bytes]
  omega

end Sys2Proof
end

