-- ==== Sys2Proof/Laws/State.lean ====
section
/-! SUPPORT. What each update of the state writes and what it leaves: one lemma per group of registers. -/

namespace Sys2Proof.Machine

/-! ### Results -/

@[simp] theorem andThen_next (s : State) (f : State → Result) : andThen (.next s) f = f s := rfl
@[simp] theorem andThen_fault (e : Fault) (f : State → Result) : andThen (.fault e) f = .fault e := rfl
@[simp] theorem andThen_refused (e : Refusal) (f : State → Result) : andThen (.refused e) f = .refused e := rfl

/-- A chain gives a next state exactly when its parts do. -/
theorem andThen_eq_next {r : Result} {f : State → Result} {t : State} :
    andThen r f = .next t ↔ ∃ s, r = .next s ∧ f s = .next t := by
  cases r <;> simp [andThen]

/-! ### noteHeader -/

@[simp] theorem noteHeader_frame (s : State) (e n : Nibble) :
    (s.noteHeader e n).frame = { s.frame with event := e, param := n } := rfl
@[simp] theorem noteHeader_flags (s : State) (e n : Nibble) : (s.noteHeader e n).flags = s.flags := rfl
@[simp] theorem noteHeader_nodeid (s : State) (e n : Nibble) : (s.noteHeader e n).nodeid = s.nodeid := rfl
@[simp] theorem noteHeader_seq (s : State) (e n : Nibble) : (s.noteHeader e n).seq = s.seq := rfl
@[simp] theorem noteHeader_timer (s : State) (e n : Nibble) : (s.noteHeader e n).timer = s.timer := rfl
@[simp] theorem noteHeader_sb (s : State) (e n : Nibble) : (s.noteHeader e n).sb = s.sb := rfl
@[simp] theorem noteHeader_faults (s : State) (e n : Nibble) : (s.noteHeader e n).faults = s.faults := rfl
@[simp] theorem noteHeader_inputs (s : State) (e n : Nibble) : (s.noteHeader e n).inputs = s.inputs := rfl
@[simp] theorem noteHeader_out (s : State) (e n : Nibble) : (s.noteHeader e n).out = s.out := rfl

/-! ### queue -/

@[simp] theorem queue_frame (s : State) (v : Byte) : (s.queue v).frame = s.frame := rfl
@[simp] theorem queue_flags (s : State) (v : Byte) :
    (s.queue v).flags = { s.flags with responseData := v, sendResponse := true } := rfl
@[simp] theorem queue_nodeid (s : State) (v : Byte) : (s.queue v).nodeid = s.nodeid := rfl
@[simp] theorem queue_seq (s : State) (v : Byte) : (s.queue v).seq = s.seq := rfl
@[simp] theorem queue_timer (s : State) (v : Byte) : (s.queue v).timer = s.timer := rfl
@[simp] theorem queue_sb (s : State) (v : Byte) : (s.queue v).sb = s.sb := rfl
@[simp] theorem queue_faults (s : State) (v : Byte) : (s.queue v).faults = s.faults := rfl
@[simp] theorem queue_inputs (s : State) (v : Byte) : (s.queue v).inputs = s.inputs := rfl
@[simp] theorem queue_out (s : State) (v : Byte) : (s.queue v).out = s.out := rfl

/-! ### setPos -/

@[simp] theorem setPos_frame (s : State) (v : Half) : (s.setPos v).frame = s.frame := rfl
@[simp] theorem setPos_flags (s : State) (v : Half) : (s.setPos v).flags = s.flags := rfl
@[simp] theorem setPos_nodeid (s : State) (v : Half) : (s.setPos v).nodeid = s.nodeid := rfl
@[simp] theorem setPos_seq (s : State) (v : Half) : (s.setPos v).seq = { s.seq with pos := v } := rfl
@[simp] theorem setPos_timer (s : State) (v : Half) : (s.setPos v).timer = s.timer := rfl
@[simp] theorem setPos_sb (s : State) (v : Half) : (s.setPos v).sb = s.sb := rfl
@[simp] theorem setPos_faults (s : State) (v : Half) : (s.setPos v).faults = s.faults := rfl
@[simp] theorem setPos_inputs (s : State) (v : Half) : (s.setPos v).inputs = s.inputs := rfl
@[simp] theorem setPos_out (s : State) (v : Half) : (s.setPos v).out = s.out := rfl

/-! ### advance -/

@[simp] theorem advance_frame (s : State) : (s.advance).frame = s.frame := rfl
@[simp] theorem advance_flags (s : State) : (s.advance).flags = s.flags := rfl
@[simp] theorem advance_nodeid (s : State) : (s.advance).nodeid = s.nodeid := rfl
@[simp] theorem advance_seq (s : State) : (s.advance).seq = { s.seq with pos := s.seq.pos + 1 } := rfl
@[simp] theorem advance_timer (s : State) : (s.advance).timer = s.timer := rfl
@[simp] theorem advance_sb (s : State) : (s.advance).sb = s.sb := rfl
@[simp] theorem advance_faults (s : State) : (s.advance).faults = s.faults := rfl
@[simp] theorem advance_inputs (s : State) : (s.advance).inputs = s.inputs := rfl
@[simp] theorem advance_out (s : State) : (s.advance).out = s.out := rfl

/-! ### startPlayback -/

@[simp] theorem startPlayback_frame (s : State) : (s.startPlayback).frame = s.frame := rfl
@[simp] theorem startPlayback_flags (s : State) :
    (s.startPlayback).flags = { s.flags with isMusicPlaying := true, isWaitingForSync := false } := rfl
@[simp] theorem startPlayback_nodeid (s : State) : (s.startPlayback).nodeid = s.nodeid := rfl
@[simp] theorem startPlayback_seq (s : State) : (s.startPlayback).seq = { s.seq with pos := 0 } := rfl
@[simp] theorem startPlayback_timer (s : State) : (s.startPlayback).timer = s.timer := rfl
@[simp] theorem startPlayback_sb (s : State) : (s.startPlayback).sb = s.sb := rfl
@[simp] theorem startPlayback_faults (s : State) : (s.startPlayback).faults = s.faults := rfl
@[simp] theorem startPlayback_inputs (s : State) : (s.startPlayback).inputs = s.inputs := rfl
@[simp] theorem startPlayback_out (s : State) : (s.startPlayback).out = s.out := rfl

/-! ### stopPlayback -/

@[simp] theorem stopPlayback_frame (s : State) : (s.stopPlayback).frame = s.frame := rfl
@[simp] theorem stopPlayback_flags (s : State) :
    (s.stopPlayback).flags = { s.flags with isMusicPlaying := false, isWaitingForSync := false } := rfl
@[simp] theorem stopPlayback_nodeid (s : State) : (s.stopPlayback).nodeid = s.nodeid := rfl
@[simp] theorem stopPlayback_seq (s : State) : (s.stopPlayback).seq = { s.seq with pos := 0 } := rfl
@[simp] theorem stopPlayback_timer (s : State) : (s.stopPlayback).timer = s.timer := rfl
@[simp] theorem stopPlayback_sb (s : State) : (s.stopPlayback).sb = s.sb := rfl
@[simp] theorem stopPlayback_faults (s : State) : (s.stopPlayback).faults = s.faults := rfl
@[simp] theorem stopPlayback_inputs (s : State) : (s.stopPlayback).inputs = s.inputs := rfl
@[simp] theorem stopPlayback_out (s : State) : (s.stopPlayback).out = s.out := rfl

/-! ### setWaiting -/

@[simp] theorem setWaiting_frame (s : State) (v : Bool) : (s.setWaiting v).frame = s.frame := rfl
@[simp] theorem setWaiting_flags (s : State) (v : Bool) :
    (s.setWaiting v).flags = { s.flags with isWaitingForSync := v } := rfl
@[simp] theorem setWaiting_nodeid (s : State) (v : Bool) : (s.setWaiting v).nodeid = s.nodeid := rfl
@[simp] theorem setWaiting_seq (s : State) (v : Bool) : (s.setWaiting v).seq = s.seq := rfl
@[simp] theorem setWaiting_timer (s : State) (v : Bool) : (s.setWaiting v).timer = s.timer := rfl
@[simp] theorem setWaiting_sb (s : State) (v : Bool) : (s.setWaiting v).sb = s.sb := rfl
@[simp] theorem setWaiting_faults (s : State) (v : Bool) : (s.setWaiting v).faults = s.faults := rfl
@[simp] theorem setWaiting_inputs (s : State) (v : Bool) : (s.setWaiting v).inputs = s.inputs := rfl
@[simp] theorem setWaiting_out (s : State) (v : Bool) : (s.setWaiting v).out = s.out := rfl

/-! ### clearPlaying -/

@[simp] theorem clearPlaying_frame (s : State) : (s.clearPlaying).frame = s.frame := rfl
@[simp] theorem clearPlaying_flags (s : State) :
    (s.clearPlaying).flags = { s.flags with isMusicPlaying := false } := rfl
@[simp] theorem clearPlaying_nodeid (s : State) : (s.clearPlaying).nodeid = s.nodeid := rfl
@[simp] theorem clearPlaying_seq (s : State) : (s.clearPlaying).seq = s.seq := rfl
@[simp] theorem clearPlaying_timer (s : State) : (s.clearPlaying).timer = s.timer := rfl
@[simp] theorem clearPlaying_sb (s : State) : (s.clearPlaying).sb = s.sb := rfl
@[simp] theorem clearPlaying_faults (s : State) : (s.clearPlaying).faults = s.faults := rfl
@[simp] theorem clearPlaying_inputs (s : State) : (s.clearPlaying).inputs = s.inputs := rfl
@[simp] theorem clearPlaying_out (s : State) : (s.clearPlaying).out = s.out := rfl

/-! ### setReady -/

@[simp] theorem setReady_frame (s : State) (v : Bool) : (s.setReady v).frame = s.frame := rfl
@[simp] theorem setReady_flags (s : State) (v : Bool) : (s.setReady v).flags = { s.flags with dataReady := v } := rfl
@[simp] theorem setReady_nodeid (s : State) (v : Bool) : (s.setReady v).nodeid = s.nodeid := rfl
@[simp] theorem setReady_seq (s : State) (v : Bool) : (s.setReady v).seq = s.seq := rfl
@[simp] theorem setReady_timer (s : State) (v : Bool) : (s.setReady v).timer = s.timer := rfl
@[simp] theorem setReady_sb (s : State) (v : Bool) : (s.setReady v).sb = s.sb := rfl
@[simp] theorem setReady_faults (s : State) (v : Bool) : (s.setReady v).faults = s.faults := rfl
@[simp] theorem setReady_inputs (s : State) (v : Bool) : (s.setReady v).inputs = s.inputs := rfl
@[simp] theorem setReady_out (s : State) (v : Bool) : (s.setReady v).out = s.out := rfl

/-! ### raiseFault -/

@[simp] theorem raiseFault_frame (s : State) (f : ModelFault) : (s.raiseFault f).frame = s.frame := rfl
@[simp] theorem raiseFault_flags (s : State) (f : ModelFault) : (s.raiseFault f).flags = s.flags := rfl
@[simp] theorem raiseFault_nodeid (s : State) (f : ModelFault) : (s.raiseFault f).nodeid = s.nodeid := rfl
@[simp] theorem raiseFault_seq (s : State) (f : ModelFault) :
    (s.raiseFault f).seq = { s.seq with state := .fault } := rfl
@[simp] theorem raiseFault_timer (s : State) (f : ModelFault) : (s.raiseFault f).timer = s.timer := rfl
@[simp] theorem raiseFault_sb (s : State) (f : ModelFault) : (s.raiseFault f).sb = s.sb := rfl
@[simp] theorem raiseFault_faults (s : State) (f : ModelFault) : (s.raiseFault f).faults = s.faults.insert f := rfl
@[simp] theorem raiseFault_inputs (s : State) (f : ModelFault) : (s.raiseFault f).inputs = s.inputs := rfl
@[simp] theorem raiseFault_out (s : State) (f : ModelFault) : (s.raiseFault f).out = s.out := rfl

/-! ### completeFrame -/

@[simp] theorem completeFrame_frame (s : State) :
    (completeFrame s).frame = { s.frame with state := .idle, len := 0, count := 0, csum := 0, matched := false, oversize := false } := rfl
@[simp] theorem completeFrame_flags (s : State) : (completeFrame s).flags = s.flags := rfl
@[simp] theorem completeFrame_nodeid (s : State) : (completeFrame s).nodeid = s.nodeid := rfl
@[simp] theorem completeFrame_seq (s : State) : (completeFrame s).seq = s.seq := rfl
@[simp] theorem completeFrame_timer (s : State) : (completeFrame s).timer = s.timer := rfl
@[simp] theorem completeFrame_sb (s : State) : (completeFrame s).sb = s.sb := rfl
@[simp] theorem completeFrame_faults (s : State) : (completeFrame s).faults = s.faults := rfl
@[simp] theorem completeFrame_inputs (s : State) : (completeFrame s).inputs = s.inputs := rfl
@[simp] theorem completeFrame_out (s : State) : (completeFrame s).out = s.out := rfl

/-! ### countByte -/

@[simp] theorem countByte_frame (s : State) :
    (countByte s).frame = { s.frame with count := s.frame.count + 1, state := if s.frame.count + 1 = s.frame.len then .check else s.frame.state } := rfl
@[simp] theorem countByte_flags (s : State) : (countByte s).flags = s.flags := rfl
@[simp] theorem countByte_nodeid (s : State) : (countByte s).nodeid = s.nodeid := rfl
@[simp] theorem countByte_seq (s : State) : (countByte s).seq = s.seq := rfl
@[simp] theorem countByte_timer (s : State) : (countByte s).timer = s.timer := rfl
@[simp] theorem countByte_sb (s : State) : (countByte s).sb = s.sb := rfl
@[simp] theorem countByte_faults (s : State) : (countByte s).faults = s.faults := rfl
@[simp] theorem countByte_inputs (s : State) : (countByte s).inputs = s.inputs := rfl
@[simp] theorem countByte_out (s : State) : (countByte s).out = s.out := rfl

/-! ### takeInput -/

@[simp] theorem takeInput_frame (s : State) : (s.takeInput).frame = s.frame := rfl
@[simp] theorem takeInput_flags (s : State) : (s.takeInput).flags = s.flags := rfl
@[simp] theorem takeInput_nodeid (s : State) : (s.takeInput).nodeid = s.nodeid := rfl
@[simp] theorem takeInput_seq (s : State) : (s.takeInput).seq = s.seq := rfl
@[simp] theorem takeInput_timer (s : State) : (s.takeInput).timer = s.timer := rfl
@[simp] theorem takeInput_sb (s : State) : (s.takeInput).sb = s.sb := rfl
@[simp] theorem takeInput_faults (s : State) : (s.takeInput).faults = s.faults := rfl
@[simp] theorem takeInput_inputs (s : State) : (s.takeInput).inputs = s.inputs.tail := rfl
@[simp] theorem takeInput_out (s : State) : (s.takeInput).out = s.out := rfl

/-! ### timerCycle -/

@[simp] theorem timerCycle_frame (s : State) : (timerCycle s).frame = s.frame := rfl
@[simp] theorem timerCycle_flags (s : State) : (timerCycle s).flags = s.flags := rfl
@[simp] theorem timerCycle_nodeid (s : State) : (timerCycle s).nodeid = s.nodeid := rfl
@[simp] theorem timerCycle_seq (s : State) : (timerCycle s).seq = s.seq := rfl
@[simp] theorem timerCycle_timer (s : State) : (timerCycle s).timer = timerTick s.timer := rfl
@[simp] theorem timerCycle_sb (s : State) : (timerCycle s).sb = s.sb := rfl
@[simp] theorem timerCycle_faults (s : State) : (timerCycle s).faults = s.faults := rfl
@[simp] theorem timerCycle_inputs (s : State) : (timerCycle s).inputs = s.inputs := rfl
@[simp] theorem timerCycle_out (s : State) : (timerCycle s).out = s.out := rfl

/-! ### lengthHigh -/

@[simp] theorem lengthHigh_frame (s : State) (b : Byte) :
    (lengthHigh b s).frame = { s.frame with state := .lenLo, len := bigEndian b (lowByte s.frame.len) } := rfl
@[simp] theorem lengthHigh_flags (s : State) (b : Byte) : (lengthHigh b s).flags = s.flags := rfl
@[simp] theorem lengthHigh_nodeid (s : State) (b : Byte) : (lengthHigh b s).nodeid = s.nodeid := rfl
@[simp] theorem lengthHigh_seq (s : State) (b : Byte) : (lengthHigh b s).seq = s.seq := rfl
@[simp] theorem lengthHigh_timer (s : State) (b : Byte) : (lengthHigh b s).timer = s.timer := rfl
@[simp] theorem lengthHigh_sb (s : State) (b : Byte) : (lengthHigh b s).sb = s.sb := rfl
@[simp] theorem lengthHigh_faults (s : State) (b : Byte) : (lengthHigh b s).faults = s.faults := rfl
@[simp] theorem lengthHigh_inputs (s : State) (b : Byte) : (lengthHigh b s).inputs = s.inputs := rfl
@[simp] theorem lengthHigh_out (s : State) (b : Byte) : (lengthHigh b s).out = s.out := rfl

/-! ### lengthLow -/

@[simp] theorem lengthLow_frame (s : State) (b : Byte) :
    (lengthLow b s).frame = { s.frame with len := declaredLength b s, oversize := oversizeLength (declaredLength b s), state := if declaredLength b s = 0 then .check else .payload } := rfl
@[simp] theorem lengthLow_flags (s : State) (b : Byte) : (lengthLow b s).flags = s.flags := rfl
@[simp] theorem lengthLow_nodeid (s : State) (b : Byte) : (lengthLow b s).nodeid = s.nodeid := rfl
@[simp] theorem lengthLow_seq (s : State) (b : Byte) : (lengthLow b s).seq = s.seq := rfl
@[simp] theorem lengthLow_timer (s : State) (b : Byte) : (lengthLow b s).timer = s.timer := rfl
@[simp] theorem lengthLow_sb (s : State) (b : Byte) : (lengthLow b s).sb = s.sb := rfl
@[simp] theorem lengthLow_faults (s : State) (b : Byte) : (lengthLow b s).faults = s.faults := rfl
@[simp] theorem lengthLow_inputs (s : State) (b : Byte) : (lengthLow b s).inputs = s.inputs := rfl
@[simp] theorem lengthLow_out (s : State) (b : Byte) : (lengthLow b s).out = s.out := rfl

end Sys2Proof.Machine
end

