-- ==== Sys2Proof/Laws/Ops.lean ====
section
/-! SUPPORT. What each shared operation can do, said once: the Song Buffer's laws, and one lemma for each operation that
branches. -/

namespace Sys2Proof.Machine

/-! ## The Song Buffer -/

theorem songBuffer_read_write_same (m : SongBuffer) (i : Nat) (e : NoteEntry) :
    SongBuffer.read (SongBuffer.write m i e) i = some e := by
  induction m with
  | nil => simp [SongBuffer.write, SongBuffer.read]
  | cons c rest ih =>
    obtain ⟨j, f⟩ := c
    unfold SongBuffer.write
    split
    · simp [SongBuffer.read]
    · split
      · simp [SongBuffer.read]
      · rename_i _ h
        simp [SongBuffer.read, Ne.symm h, ih]

theorem songBuffer_read_write_other (m : SongBuffer) {i a : Nat} (e : NoteEntry) (h : a ≠ i) :
    SongBuffer.read (SongBuffer.write m i e) a = SongBuffer.read m a := by
  induction m with
  | nil => simp [SongBuffer.write, SongBuffer.read, Ne.symm h]
  | cons c rest ih =>
    obtain ⟨j, f⟩ := c
    unfold SongBuffer.write
    split
    · simp [SongBuffer.read, Ne.symm h]
    · split
      · rename_i _ hij
        subst hij
        simp [SongBuffer.read, Ne.symm h]
      · simp [SongBuffer.read, ih]

theorem songBuffer_wfFrom_mono {m : SongBuffer} {lo lo' : Nat} (hle : lo' ≤ lo)
    (h : SongBuffer.wfFrom lo m = true) : SongBuffer.wfFrom lo' m = true := by
  cases m with
  | nil => rfl
  | cons c rest =>
    obtain ⟨j, f⟩ := c
    simp only [SongBuffer.wfFrom, Bool.and_eq_true, decide_eq_true_eq] at h ⊢
    exact ⟨⟨by omega, h.1.2⟩, h.2⟩

theorem songBuffer_wfFrom_write {i : Nat} (e : NoteEntry) (hi : i < Config.maxNotes) :
    ∀ {m : SongBuffer} {lo : Nat}, lo ≤ i → SongBuffer.wfFrom lo m = true →
      SongBuffer.wfFrom lo (SongBuffer.write m i e) = true
  | [], lo, hlo, _ => by simp [SongBuffer.write, SongBuffer.wfFrom, hlo, hi]
  | (j, f) :: rest, lo, hlo, h => by
    simp only [SongBuffer.wfFrom, Bool.and_eq_true, decide_eq_true_eq] at h
    unfold SongBuffer.write
    split
    · rename_i hij
      simp only [SongBuffer.wfFrom, Bool.and_eq_true, decide_eq_true_eq]
      exact ⟨⟨hlo, hi⟩, ⟨by omega, h.1.2⟩, h.2⟩
    · split
      · rename_i hij
        subst hij
        simp only [SongBuffer.wfFrom, Bool.and_eq_true, decide_eq_true_eq]
        exact ⟨⟨hlo, hi⟩, h.2⟩
      · simp only [SongBuffer.wfFrom, Bool.and_eq_true, decide_eq_true_eq]
        exact ⟨⟨h.1.1, h.1.2⟩, songBuffer_wfFrom_write e hi (by omega) h.2⟩

/-- The one operation on the Song Buffer keeps its canonical form. -/
theorem songBuffer_wf_write {m : SongBuffer} {i : Nat} (e : NoteEntry) (hi : i < Config.maxNotes)
    (h : SongBuffer.wf m = true) : SongBuffer.wf (SongBuffer.write m i e) = true :=
  songBuffer_wfFrom_write e hi (Nat.zero_le i) h

theorem songBuffer_read_below {m : SongBuffer} {lo a : Nat} (h : SongBuffer.wfFrom lo m = true) (ha : a < lo) :
    SongBuffer.read m a = none := by
  induction m generalizing lo with
  | nil => rfl
  | cons c rest ih =>
    obtain ⟨j, f⟩ := c
    simp only [SongBuffer.wfFrom, Bool.and_eq_true, decide_eq_true_eq] at h
    have : j ≠ a := by omega
    simp only [SongBuffer.read, this, if_false]
    exact ih h.2 (by omega)

/-- Two buffers in the canonical form that read alike are the same list. -/
theorem songBuffer_ext_from : ∀ {m n : SongBuffer} {lo : Nat},
    SongBuffer.wfFrom lo m = true → SongBuffer.wfFrom lo n = true →
    (∀ a, SongBuffer.read m a = SongBuffer.read n a) → m = n
  | [], [], _, _, _, _ => rfl
  | [], (j, f) :: _, _, _, _, h => by simpa [SongBuffer.read] using h j
  | (j, f) :: _, [], _, _, _, h => by simpa [SongBuffer.read] using h j
  | (j, f) :: r, (k, g) :: q, lo, hm, hn, h => by
    simp only [SongBuffer.wfFrom, Bool.and_eq_true, decide_eq_true_eq] at hm hn
    have hjk : j = k := by
      rcases Nat.lt_trichotomy j k with hlt | heq | hgt
      · have := h j
        have hne : k ≠ j := by omega
        simp [SongBuffer.read, hne, songBuffer_read_below hn.2 (by omega : j < k + 1)] at this
      · exact heq
      · have := h k
        have hne : j ≠ k := by omega
        simp [SongBuffer.read, hne, songBuffer_read_below hm.2 (by omega : k < j + 1)] at this
    subst hjk
    have hfg : f = g := by simpa [SongBuffer.read] using h j
    subst hfg
    have hr : r = q := by
      refine songBuffer_ext_from hm.2 hn.2 (fun a => ?_)
      by_cases ha : j = a
      · subst ha
        rw [songBuffer_read_below hm.2 (by omega), songBuffer_read_below hn.2 (by omega)]
      · simpa [SongBuffer.read, ha] using h a
    rw [hr]

theorem sbWrite_eq_next {s t : State} {i : Nat} {e : NoteEntry} :
    s.sbWrite i e = .next t ↔ i < Config.maxNotes ∧ t = { s with sb := SongBuffer.write s.sb i e } := by
  unfold State.sbWrite
  split <;> simp_all [eq_comm]

/-! ## The cursor's entry -/

/-- The three things a dispatch can find (R181). -/
theorem fetchNote_cases (s : State) :
    (s.fetchNote = .overrun ∧ Config.maxNotes ≤ s.seq.pos.toNat) ∨
    (s.fetchNote = .unwritten ∧ s.seq.pos.toNat < Config.maxNotes ∧ s.sbRead s.seq.pos.toNat = none) ∨
    (∃ e, s.fetchNote = .entry e ∧ s.seq.pos.toNat < Config.maxNotes ∧ s.sbRead s.seq.pos.toNat = some e) := by
  unfold State.fetchNote
  split
  · exact .inl ⟨rfl, ‹_›⟩
  · split
    · exact .inr (.inl ⟨rfl, by omega, ‹_›⟩)
    · exact .inr (.inr ⟨_, rfl, by omega, ‹_›⟩)

/-! ## Notifications, the transmitter, the buttons -/

/-- A notification changes the response slot at most. -/
theorem notify_cases (s : State) (v : Byte) :
    (s.isCoordinator = true ∧ s.notify v = s.queue v) ∨ (s.isCoordinator = false ∧ s.notify v = s) := by
  unfold State.notify
  cases h : s.isCoordinator <;> simp

@[simp] theorem notify_frame (s : State) (v : Byte) : (s.notify v).frame = s.frame := by
  unfold State.notify; split <;> rfl
@[simp] theorem notify_nodeid (s : State) (v : Byte) : (s.notify v).nodeid = s.nodeid := by
  unfold State.notify; split <;> rfl
@[simp] theorem notify_seq (s : State) (v : Byte) : (s.notify v).seq = s.seq := by
  unfold State.notify; split <;> rfl
@[simp] theorem notify_timer (s : State) (v : Byte) : (s.notify v).timer = s.timer := by
  unfold State.notify; split <;> rfl
@[simp] theorem notify_sb (s : State) (v : Byte) : (s.notify v).sb = s.sb := by
  unfold State.notify; split <;> rfl
@[simp] theorem notify_faults (s : State) (v : Byte) : (s.notify v).faults = s.faults := by
  unfold State.notify; split <;> rfl
@[simp] theorem notify_inputs (s : State) (v : Byte) : (s.notify v).inputs = s.inputs := by
  unfold State.notify; split <;> rfl
@[simp] theorem notify_out (s : State) (v : Byte) : (s.notify v).out = s.out := by
  unfold State.notify; split <;> rfl
@[simp] theorem notify_flags (s : State) (v : Byte) :
    (s.notify v).flags =
      { s.flags with
        sendResponse := s.flags.sendResponse || s.isCoordinator
        responseData := if s.isCoordinator then v else s.flags.responseData } := by
  unfold State.notify
  cases s.isCoordinator <;> simp

@[simp] theorem transmitCycle_frame (i : CycleInput) (s : State) : (transmitCycle i s).frame = s.frame := by
  unfold transmitCycle; split <;> [rfl; (split <;> rfl)]
@[simp] theorem transmitCycle_nodeid (i : CycleInput) (s : State) : (transmitCycle i s).nodeid = s.nodeid := by
  unfold transmitCycle; split <;> [rfl; (split <;> rfl)]
@[simp] theorem transmitCycle_seq (i : CycleInput) (s : State) : (transmitCycle i s).seq = s.seq := by
  unfold transmitCycle; split <;> [rfl; (split <;> rfl)]
@[simp] theorem transmitCycle_timer (i : CycleInput) (s : State) : (transmitCycle i s).timer = s.timer := by
  unfold transmitCycle; split <;> [rfl; (split <;> rfl)]
@[simp] theorem transmitCycle_sb (i : CycleInput) (s : State) : (transmitCycle i s).sb = s.sb := by
  unfold transmitCycle; split <;> [rfl; (split <;> rfl)]
@[simp] theorem transmitCycle_faults (i : CycleInput) (s : State) : (transmitCycle i s).faults = s.faults := by
  unfold transmitCycle; split <;> [rfl; (split <;> rfl)]
@[simp] theorem transmitCycle_inputs (i : CycleInput) (s : State) : (transmitCycle i s).inputs = s.inputs := by
  unfold transmitCycle; split <;> [rfl; (split <;> rfl)]
@[simp] theorem transmitCycle_out (i : CycleInput) (s : State) : (transmitCycle i s).out = s.out := by
  unfold transmitCycle; split <;> [rfl; (split <;> rfl)]

/-- The transmitter's two flags, in one expression each; the other flags stay (R226, R227). -/
@[simp] theorem transmitCycle_flags (i : CycleInput) (s : State) :
    (transmitCycle i s).flags =
      { s.flags with
        sendResponse := s.flags.sendResponse && !s.drains
        uartBusy := s.drains || (s.flags.uartBusy && !i.txDone) } := by
  obtain ⟨fr, ⟨p, w, d, sr, rd, ub⟩, n, sq, tm, sb, fs, ins, out⟩ := s
  unfold transmitCycle State.drains
  cases sr <;> cases ub <;> cases i.txDone <;> simp

/-! ## The timer -/

@[simp] theorem timerTick_en (t : ToneTimer) : (timerTick t).en = t.en := by
  unfold timerTick timerCount
  split <;> [(split <;> [(split <;> rfl); rfl]); rfl]

@[simp] theorem timerTick_reload (t : ToneTimer) : (timerTick t).reload = t.reload := by
  unfold timerTick timerCount
  split <;> [(split <;> [(split <;> rfl); rfl]); rfl]

theorem timerTick_disabled {t : ToneTimer} (h : t.en = false) : timerTick t = t := by
  simp [timerTick, h]

/-- The prescaler stays below `TIMER_DIV` (R43). -/
theorem timerTick_presc_lt {t : ToneTimer} (h : t.presc < Config.timerDiv) :
    (timerTick t).presc < Config.timerDiv := by
  unfold timerTick timerCount
  split
  · split
    · split <;> (simp only; omega)
    · simp only; omega
  · exact h

/-! ## The parts of a cycle -/

@[simp] theorem beginCycle_frame (i : CycleInput) (s : State) : (beginCycle i s).frame = s.frame := by
  simp [beginCycle]
@[simp] theorem beginCycle_nodeid (i : CycleInput) (s : State) : (beginCycle i s).nodeid = s.nodeid := by
  simp [beginCycle]
@[simp] theorem beginCycle_seq (i : CycleInput) (s : State) : (beginCycle i s).seq = s.seq := by
  simp [beginCycle]
@[simp] theorem beginCycle_timer (i : CycleInput) (s : State) : (beginCycle i s).timer = timerTick s.timer := by
  simp [beginCycle]
@[simp] theorem beginCycle_sb (i : CycleInput) (s : State) : (beginCycle i s).sb = s.sb := by
  simp [beginCycle]
@[simp] theorem beginCycle_faults (i : CycleInput) (s : State) : (beginCycle i s).faults = s.faults := by
  simp [beginCycle]
@[simp] theorem beginCycle_inputs (i : CycleInput) (s : State) : (beginCycle i s).inputs = s.inputs := by
  simp [beginCycle]
@[simp] theorem beginCycle_flags (i : CycleInput) (s : State) :
    (beginCycle i s).flags =
      { s.flags with
        sendResponse := s.flags.sendResponse && !s.drains
        uartBusy := s.drains || (s.flags.uartBusy && !i.txDone) } := by
  simp [beginCycle, State.drains]

@[simp] theorem beginCycle_playbackEnabled (i : CycleInput) (s : State) :
    (beginCycle i s).playbackEnabled = s.playbackEnabled := by simp [State.playbackEnabled]
@[simp] theorem beginCycle_sbRead (i : CycleInput) (s : State) (a : Nat) :
    (beginCycle i s).sbRead a = s.sbRead a := by simp [State.sbRead]
@[simp] theorem beginCycle_fetchNote (i : CycleInput) (s : State) : (beginCycle i s).fetchNote = s.fetchNote := by
  simp [State.fetchNote]
@[simp] theorem beginCycle_isCoordinator (i : CycleInput) (s : State) :
    (beginCycle i s).isCoordinator = s.isCoordinator := by simp [State.isCoordinator]

@[simp] theorem takeInput_playbackEnabled (s : State) : s.takeInput.playbackEnabled = s.playbackEnabled := rfl
@[simp] theorem takeInput_sbRead (s : State) (a : Nat) : s.takeInput.sbRead a = s.sbRead a := rfl
@[simp] theorem takeInput_fetchNote (s : State) : s.takeInput.fetchNote = s.fetchNote := rfl
@[simp] theorem takeInput_isCoordinator (s : State) : s.takeInput.isCoordinator = s.isCoordinator := rfl
@[simp] theorem takeInput_drains (s : State) : s.takeInput.drains = s.drains := rfl

@[simp] theorem endCycle_frame (i : CycleInput) (p s : State) : (endCycle i p s).frame = s.frame := rfl
@[simp] theorem endCycle_flags (i : CycleInput) (p s : State) : (endCycle i p s).flags = s.flags := rfl
@[simp] theorem endCycle_seq (i : CycleInput) (p s : State) : (endCycle i p s).seq = s.seq := rfl
@[simp] theorem endCycle_timer (i : CycleInput) (p s : State) : (endCycle i p s).timer = s.timer := rfl
@[simp] theorem endCycle_sb (i : CycleInput) (p s : State) : (endCycle i p s).sb = s.sb := rfl
@[simp] theorem endCycle_faults (i : CycleInput) (p s : State) : (endCycle i p s).faults = s.faults := rfl
@[simp] theorem endCycle_inputs (i : CycleInput) (p s : State) : (endCycle i p s).inputs = s.inputs := rfl
@[simp] theorem endCycle_out (i : CycleInput) (p s : State) : (endCycle i p s).out = cycleOutput i p := rfl
@[simp] theorem endCycle_nodeid (i : CycleInput) (p s : State) :
    (endCycle i p s).nodeid = (buttonResult i p).getD s.nodeid := rfl

@[simp] theorem toneCycle_frame (s : State) : (toneCycle s).frame = s.frame := by unfold toneCycle; split <;> rfl
@[simp] theorem toneCycle_flags (s : State) : (toneCycle s).flags = s.flags := by unfold toneCycle; split <;> rfl
@[simp] theorem toneCycle_nodeid (s : State) : (toneCycle s).nodeid = s.nodeid := by unfold toneCycle; split <;> rfl
@[simp] theorem toneCycle_sb (s : State) : (toneCycle s).sb = s.sb := by unfold toneCycle; split <;> rfl
@[simp] theorem toneCycle_faults (s : State) : (toneCycle s).faults = s.faults := by unfold toneCycle; split <;> rfl
@[simp] theorem toneCycle_inputs (s : State) : (toneCycle s).inputs = s.inputs := by unfold toneCycle; split <;> rfl
@[simp] theorem restCycle_frame (s : State) : (restCycle s).frame = s.frame := by unfold restCycle; split <;> rfl
@[simp] theorem restCycle_flags (s : State) : (restCycle s).flags = s.flags := by unfold restCycle; split <;> rfl
@[simp] theorem restCycle_nodeid (s : State) : (restCycle s).nodeid = s.nodeid := by unfold restCycle; split <;> rfl
@[simp] theorem restCycle_timer (s : State) : (restCycle s).timer = s.timer := by unfold restCycle; split <;> rfl
@[simp] theorem restCycle_sb (s : State) : (restCycle s).sb = s.sb := by unfold restCycle; split <;> rfl
@[simp] theorem restCycle_faults (s : State) : (restCycle s).faults = s.faults := by unfold restCycle; split <;> rfl
@[simp] theorem restCycle_inputs (s : State) : (restCycle s).inputs = s.inputs := by unfold restCycle; split <;> rfl

end Sys2Proof.Machine
end

