-- ==== Sys2Proof/Laws/Step.lean ====
section
/-! SUPPORT. One inversion lemma for each part of a cycle and for the cycle: if it answers a next state, then one of these
cases holds. Later proofs cite these and do not unfold the step. -/

namespace Sys2Proof.Machine

/-! ## Decoding, by cases -/

/-- The five kinds of note entries (R97). -/
theorem decodeNote_cases (w : BitVec 24) :
    ((notePitch w).toNat ≤ 127 ∧ decodeNote w = .tone ((notePitch w).setWidth 7) (noteDuration w)) ∨
    (128 ≤ (notePitch w).toNat ∧ (notePitch w).toNat ≤ 252 ∧ decodeNote w = .rsvp (notePitch w) (noteDuration w)) ∨
    (notePitch w = 253 ∧ decodeNote w = .sync (noteDuration w)) ∨
    (notePitch w = 254 ∧ decodeNote w = .endSong (noteDuration w)) ∨
    (notePitch w = 255 ∧ decodeNote w = .rest (noteDuration w)) := by
  have hlt := (notePitch w).isLt
  have eqOf : ∀ n : Nat, n < 256 → (notePitch w).toNat = n → notePitch w = BitVec.ofNat 8 n := by
    intro n hn h
    apply BitVec.eq_of_toNat_eq
    simp [h, Nat.mod_eq_of_lt hn]
  unfold decodeNote
  split
  · exact .inl ⟨by omega, rfl⟩
  · split
    · exact .inr (.inl ⟨by omega, by omega, rfl⟩)
    · split
      · exact .inr (.inr (.inl ⟨eqOf 253 (by omega) ‹_›, rfl⟩))
      · split
        · exact .inr (.inr (.inr (.inl ⟨eqOf 254 (by omega) ‹_›, rfl⟩)))
        · exact .inr (.inr (.inr (.inr ⟨eqOf 255 (by omega) (by omega), rfl⟩)))

/-! ## The sequencer's part -/

/-- What the sequencer can do in a cycle (R180 to R190). It always answers a next state. -/
theorem sequencerCycle_cases (s : State) :
    (s.seq.state = .idle ∧ s.playbackEnabled = false ∧ sequencerCycle s = .next s) ∨
    (s.seq.state = .idle ∧ s.playbackEnabled = true ∧ s.fetchNote = .overrun ∧
      sequencerCycle s = .next (s.raiseFault .cursorOverrun)) ∨
    (s.seq.state = .idle ∧ s.playbackEnabled = true ∧ s.fetchNote = .unwritten ∧
      sequencerCycle s = .next (s.raiseFault .unwrittenEntry)) ∨
    (∃ e, s.seq.state = .idle ∧ s.playbackEnabled = true ∧ s.fetchNote = .entry e ∧
      sequencerCycle s = exec (decodeNote e.bits) s) ∨
    (s.seq.state = .tone ∧ sequencerCycle s = .next (toneCycle s)) ∨
    (s.seq.state = .rest ∧ sequencerCycle s = .next (restCycle s)) ∨
    (s.seq.state = .fault ∧ sequencerCycle s = .next s) := by
  unfold sequencerCycle
  cases hs : s.seq.state with
  | idle =>
    cases he : s.playbackEnabled with
    | false => simp
    | true =>
      rcases fetchNote_cases s with ⟨hf, -⟩ | ⟨hf, -⟩ | ⟨e, hf, -⟩ <;> simp [dispatchEntry, hf]
  | tone => simp
  | rest => simp
  | fault => simp

/-- A note's meaning always answers a next state, and it leaves the frame receiver's registers, the node ID, the Song
Buffer, the transmitter's `uartBusy` and the schedule. -/
theorem execNote_frame (w : BitVec 24) (s : State) :
    ∃ t, exec (decodeNote w) s = .next t ∧ t.frame = s.frame ∧ t.nodeid = s.nodeid ∧ t.sb = s.sb ∧
      t.inputs = s.inputs ∧ t.flags.dataReady = s.flags.dataReady ∧ t.flags.uartBusy = s.flags.uartBusy := by
  rcases decodeNote_cases w with ⟨-, h⟩ | ⟨-, -, h⟩ | ⟨-, h⟩ | ⟨-, h⟩ | ⟨-, h⟩ <;> rw [h]
  · exact ⟨_, rfl, by split <;> simp⟩
  · exact ⟨_, rfl, by simp⟩
  · exact ⟨_, rfl, by simp⟩
  · exact ⟨_, rfl, by simp⟩
  · exact ⟨_, rfl, by split <;> simp⟩

/-- The sequencer's part answers a next state and leaves what R58 does not give it (R197). -/
theorem sequencerCycle_frame (s : State) :
    ∃ t, sequencerCycle s = .next t ∧ t.frame = s.frame ∧ t.nodeid = s.nodeid ∧ t.sb = s.sb ∧
      t.inputs = s.inputs ∧ t.flags.dataReady = s.flags.dataReady ∧ t.flags.uartBusy = s.flags.uartBusy := by
  rcases sequencerCycle_cases s with ⟨-, -, h⟩ | ⟨-, -, -, h⟩ | ⟨-, -, -, h⟩ | ⟨e, -, -, -, h⟩ | ⟨-, h⟩ | ⟨-, h⟩ |
    ⟨-, h⟩ <;> rw [h]
  · exact ⟨_, rfl, by simp⟩
  · exact ⟨_, rfl, by simp⟩
  · exact ⟨_, rfl, by simp⟩
  · exact execNote_frame _ _
  · exact ⟨_, rfl, by simp⟩
  · exact ⟨_, rfl, by simp⟩
  · exact ⟨_, rfl, by simp⟩

/-! ## The receiver's part -/

/-- A header's meaning always answers a next state, and it leaves the sequencer's state and countdown, the timer, the
node ID, the Song Buffer, the faults, the response slot and the schedule (R167, R168). -/
theorem execHeader_frame (b : Byte) (s : State) :
    ∃ t, exec (decodeHeader b) s = .next t ∧ t.seq.state = s.seq.state ∧ t.seq.wait = s.seq.wait ∧
      t.timer = s.timer ∧ t.nodeid = s.nodeid ∧ t.sb = s.sb ∧ t.faults = s.faults ∧ t.inputs = s.inputs ∧
      t.flags.sendResponse = s.flags.sendResponse ∧ t.flags.responseData = s.flags.responseData ∧
      t.flags.uartBusy = s.flags.uartBusy ∧ (t.seq.pos = s.seq.pos ∨ t.seq.pos = 0) := by
  unfold decodeHeader
  split <;> (refine ⟨_, rfl, ?_⟩) <;> first | (split <;> simp) | simp

/-- The state after a payload byte that is counted only (R126). -/
theorem payloadByte_discarded {s : State} (b : Byte) (h : s.accept = false) :
    payloadByte b s = .next (countByte s) := by
  simp [payloadByte, h]

/-- What an accepted payload byte does (R126). -/
theorem acceptByte_cases (b : Byte) (s : State) :
    (triplePlace s.frame.count = 0 ∧ acceptByte b s =
      .next { s with frame := { s.frame with csum := csumStep s.frame.csum b, stagePitch := b } }) ∨
    (triplePlace s.frame.count = 1 ∧ acceptByte b s =
      .next { s with frame := { s.frame with csum := csumStep s.frame.csum b, stageDhi := b } }) ∨
    (triplePlace s.frame.count = 2 ∧ acceptByte b s =
      ({ s with frame := { s.frame with csum := csumStep s.frame.csum b } } : State).sbWrite
        (tripleSlot s.frame.count) ⟨s.frame.stagePitch, bigEndian s.frame.stageDhi b⟩) := by
  have h3 : triplePlace s.frame.count < 3 := Nat.mod_lt _ (by omega)
  unfold acceptByte
  rcases h : triplePlace s.frame.count with _ | _ | _ | n
  · simp
  · simp
  · simp
  · omega

/-- The receive path's part, by the receiver's state (R120). -/
theorem receiveByte_cases (b : Byte) (s : State) :
    (s.frame.state = .idle ∧ receiveByte b s = exec (decodeHeader b) s) ∨
    (s.frame.state = .lenHi ∧ receiveByte b s = .next (lengthHigh b s)) ∨
    (s.frame.state = .lenLo ∧ receiveByte b s = .next (lengthLow b s)) ∨
    (s.frame.state = .payload ∧ receiveByte b s = payloadByte b s) ∨
    (s.frame.state = .check ∧ receiveByte b s = .next (checkByte b s)) := by
  unfold receiveByte
  cases s.frame.state <;> simp

/-- The verdict on a frame leaves everything but `dataReady` and the response slot (R127). -/
theorem judgeFrame_frame (b : Byte) (s : State) :
    (judgeFrame b s).frame = s.frame ∧ (judgeFrame b s).seq = s.seq ∧ (judgeFrame b s).timer = s.timer ∧
      (judgeFrame b s).nodeid = s.nodeid ∧ (judgeFrame b s).sb = s.sb ∧ (judgeFrame b s).faults = s.faults ∧
      (judgeFrame b s).inputs = s.inputs ∧ (judgeFrame b s).flags.isMusicPlaying = s.flags.isMusicPlaying ∧
      (judgeFrame b s).flags.isWaitingForSync = s.flags.isWaitingForSync ∧
      (judgeFrame b s).flags.uartBusy = s.flags.uartBusy := by
  unfold judgeFrame
  split
  · simp
  · split
    · simp
    · split <;> simp

/-- What a payload byte's next state leaves (R58, R126). -/
theorem payloadByte_frame {b : Byte} {s t : State} (h : payloadByte b s = .next t) :
    t.flags = s.flags ∧ t.seq = s.seq ∧ t.timer = s.timer ∧ t.nodeid = s.nodeid ∧ t.faults = s.faults ∧
      t.inputs = s.inputs := by
  unfold payloadByte at h
  split at h
  · obtain ⟨u, hu, ht⟩ := andThen_eq_next.mp h
    cases ht
    rcases acceptByte_cases b s with ⟨-, ha⟩ | ⟨-, ha⟩ | ⟨-, ha⟩ <;> rw [ha] at hu
    · cases hu; simp
    · cases hu; simp
    · obtain ⟨-, rfl⟩ := sbWrite_eq_next.mp hu; simp
  · cases h; simp

/-- What the receive path leaves in any state: the sequencer's state and countdown, the timer, the node ID, the faults,
`uartBusy` and the schedule (R58). -/
theorem receiverCycle_frame {i : CycleInput} {s t : State} (h : receiverCycle i s = .next t) :
    t.seq.state = s.seq.state ∧ t.seq.wait = s.seq.wait ∧ t.timer = s.timer ∧ t.nodeid = s.nodeid ∧
      t.faults = s.faults ∧ t.inputs = s.inputs ∧ t.flags.uartBusy = s.flags.uartBusy := by
  unfold receiverCycle at h
  split at h
  · cases h; simp
  · rename_i b _
    rcases receiveByte_cases b s with ⟨-, hb⟩ | ⟨-, hb⟩ | ⟨-, hb⟩ | ⟨-, hb⟩ | ⟨-, hb⟩ <;> rw [hb] at h
    · obtain ⟨u, hu, hrest⟩ := execHeader_frame b s
      rw [hu] at h; cases h
      exact ⟨hrest.1, hrest.2.1, hrest.2.2.1, hrest.2.2.2.1, hrest.2.2.2.2.2.1, hrest.2.2.2.2.2.2.1,
        hrest.2.2.2.2.2.2.2.2.2.1⟩
    · cases h; simp
    · cases h; simp
    · obtain ⟨hf, hs, ht, hn, hfa, hi⟩ := payloadByte_frame h
      rw [hf, hs]; exact ⟨rfl, rfl, ht, hn, hfa, hi, rfl⟩
    · cases h
      have := judgeFrame_frame b s
      simp [checkByte, this]

/-! ## The cycle -/

/-- What a cycle with `rst = 0` can do: the sequencer's part, then the receive path's, on the state before the edge with
the timer's and the transmitter's part done; then the node ID and the outputs. -/
theorem activeCycle_eq_next {i : CycleInput} {s t : State} :
    activeCycle i s = .next t ↔
      ∃ s₁ s₂, sequencerCycle (beginCycle i s) = .next s₁ ∧ receiverCycle i s₁ = .next s₂ ∧
        t = endCycle i s s₂ := by
  unfold activeCycle
  rw [andThen_eq_next]
  constructor
  · rintro ⟨s₁, h₁, h⟩
    obtain ⟨s₂, h₂, h₃⟩ := andThen_eq_next.mp h
    cases h₃
    exact ⟨s₁, s₂, h₁, h₂, rfl⟩
  · rintro ⟨s₁, s₂, h₁, h₂, rfl⟩
    exact ⟨s₁, h₁, andThen_eq_next.mpr ⟨s₂, h₂, rfl⟩⟩

/-- The step with inputs scheduled. -/
theorem step_cons {s : State} {i : CycleInput} {rest : List CycleInput} (h : s.inputs = i :: rest) :
    step s = runCycle i { s with inputs := rest } := by
  simp [step, clockCycle, State.currentInput, State.takeInput, h]

/-- The step with none: every input is low. -/
theorem step_nil {s : State} (h : s.inputs = []) : step s = activeCycle {} s := by
  have : ({ s with inputs := ([] : List CycleInput) } : State) = s := by rw [← h]
  simp [step, clockCycle, State.currentInput, State.takeInput, h, runCycle, this]

/-- Every step is a reset cycle or an active cycle of the state with its schedule moved on. -/
theorem step_cases (s : State) :
    (s.currentInput.rst = true ∧ step s = .next (State.resetWith s.currentInput.nvBoot s.inputs.tail)) ∨
    (s.currentInput.rst = false ∧ step s = activeCycle s.currentInput s.takeInput) := by
  unfold step clockCycle runCycle
  cases h : s.currentInput.rst <;> simp [resetCycle, State.takeInput]

/-- A run of one more cycle: one step, then the rest. -/
theorem run_succ_eq_next {k : Nat} {s t : State} :
    Host.Core.run Sys2Proof.core (k + 1) s = .next t ↔
      ∃ u, step s = .next u ∧ Host.Core.run Sys2Proof.core k u = .next t := by
  have hstep : Sys2Proof.core.step s = step s := rfl
  have hrun := Host.Core.run.eq_2 Sys2Proof.core s k
  rw [show Host.Core.run Sys2Proof.core (k + 1) s = _ from hrun, hstep]
  cases step s <;> simp

end Sys2Proof.Machine
end

