-- ==== Sys2Proof/Laws/Cycle.lean ====
section
/-! SUPPORT. One cycle in the terms of claims: a cycle with a byte beside the same cycle without it, and runs of cycles. -/

namespace Sys2Proof.Machine

open Sys2Proof.Safety

/-- A cycle that receives a byte, beside the same cycle without it: both run the same sequencer's part, which leaves the
receiver's registers, the Song Buffer, the node ID and `dataReady`. -/
theorem step_with_byte {s : State} {b : Byte} (h : Receives s b) :
    ∃ s₁, sequencerCycle (beginCycle s.currentInput s.takeInput) = .next s₁ ∧
      s₁.frame = s.frame ∧ s₁.nodeid = s.nodeid ∧ s₁.sb = s.sb ∧ s₁.inputs = s.inputs.tail ∧
      s₁.flags.dataReady = s.flags.dataReady ∧
      step (withoutByte s) = .next (endCycle s.currentInput s.takeInput s₁) ∧
      step s = andThen (receiveByte b s₁) (fun s₂ => .next (endCycle s.currentInput s.takeInput s₂)) := by
  obtain ⟨hrst, hrx⟩ := h
  obtain ⟨s₁, h₁, hf, hn, hb, hi, hd, -⟩ := sequencerCycle_frame (beginCycle s.currentInput s.takeInput)
  refine ⟨s₁, h₁, by simpa using hf, by simpa using hn, by simpa using hb, by simpa using hi, by simpa using hd, ?_, ?_⟩
  · have hcur : (withoutByte s).currentInput = { s.currentInput with rx := none } := rfl
    have htake : (withoutByte s).takeInput = s.takeInput := rfl
    have hbegin : beginCycle { s.currentInput with rx := none } s.takeInput = beginCycle s.currentInput s.takeInput := rfl
    unfold step clockCycle runCycle
    rw [hcur, htake, hrst]
    simp only [Bool.false_eq_true, if_false]
    exact activeCycle_eq_next.mpr ⟨s₁, s₁, by rw [hbegin]; exact h₁, rfl, rfl⟩
  · unfold step clockCycle runCycle activeCycle
    rw [hrst, h₁]
    simp [receiverCycle, hrx]

/-- A cycle that receives nothing is the sequencer's part alone, between the parts of the other agents. -/
theorem step_without_byte {s : State} (h : ReceivesNothing s) :
    step s = andThen (sequencerCycle (beginCycle s.currentInput s.takeInput))
      (fun s₁ => .next (endCycle s.currentInput s.takeInput s₁)) := by
  obtain ⟨hrst, hrx⟩ := h
  unfold step clockCycle runCycle activeCycle
  rw [hrst]
  simp [receiverCycle, hrx]

/-- An active cycle that answers a next state, taken apart into its two parts. -/
theorem step_active_eq_next {s t : State} (h : Active s) :
    step s = .next t ↔
      ∃ s₁ s₂, sequencerCycle (beginCycle s.currentInput s.takeInput) = .next s₁ ∧
        receiverCycle s.currentInput s₁ = .next s₂ ∧ t = endCycle s.currentInput s.takeInput s₂ := by
  unfold step clockCycle runCycle
  rw [h]
  simp only [Bool.false_eq_true, if_false]
  exact activeCycle_eq_next

/-- The empty run. -/
theorem runsTo_nil {s t : State} : RunsTo s [] t ↔ t = withInputs s [] := by
  unfold RunsTo
  have : Host.Core.run Sys2Proof.core 0 (withInputs s []) = .next (withInputs s []) := Host.Core.run.eq_1 _ _
  rw [show ([] : List CycleInput).length = 0 from rfl, this]
  constructor
  · intro h; cases h; rfl
  · rintro rfl; rfl

/-- A state's schedule after a step is the rest of its schedule. -/
theorem step_inputs {s t : State} (h : step s = .next t) : t.inputs = s.inputs.tail := by
  rcases step_cases s with ⟨-, hs⟩ | ⟨-, hs⟩ <;> rw [hs] at h
  · cases h; rfl
  · obtain ⟨s₁, s₂, h₁, h₂, rfl⟩ := activeCycle_eq_next.mp h
    obtain ⟨u, hu, -, -, -, hi, -⟩ := sequencerCycle_frame (beginCycle s.currentInput s.takeInput)
    rw [hu] at h₁; cases h₁
    have := (receiverCycle_frame h₂).2.2.2.2.2.1
    simp [this, hi, State.takeInput]

/-- A run's first cycle, then the run of the rest. -/
theorem runsTo_cons {s t : State} {i : CycleInput} {ins : List CycleInput} :
    RunsTo s (i :: ins) t ↔ ∃ u, step (withInputs s (i :: ins)) = .next u ∧ RunsTo u ins t := by
  unfold RunsTo
  rw [List.length_cons, run_succ_eq_next]
  constructor
  · rintro ⟨u, hu, ht⟩
    refine ⟨u, hu, ?_⟩
    have : withInputs u ins = u := by
      have := step_inputs hu
      simp only [withInputs, List.tail_cons] at this ⊢
      rw [← this]
    rwa [this]
  · rintro ⟨u, hu, ht⟩
    refine ⟨u, hu, ?_⟩
    have : withInputs u ins = u := by
      have := step_inputs hu
      simp only [withInputs, List.tail_cons] at this ⊢
      rw [← this]
    rwa [this] at ht

/-- No instruction reads or writes the schedule. -/
theorem exec_withInputs (i : Instr) (s : State) (ins : List CycleInput) :
    exec i (withInputs s ins) = andThen (exec i s) (fun t => .next (withInputs t ins)) := by
  cases i <;> simp only [exec, execNop, execLoad, execRsv2, execStart, execStop, execStartn, execStopn, execRsv7,
    execSyncack, execRsv9, execRsva, execRsvb, execRsvc, execRsvd, execHoste, execHostf, execTone, execRest,
    execEndSong, execSync, execRsvp, andThen_next]
  case startn n => exact congrArg _ (by rw [apply_ite (withInputs · ins)]; rfl)
  case stopn n => exact congrArg _ (by rw [apply_ite (withInputs · ins)]; rfl)
  case tone p d => exact congrArg _ (by rw [apply_ite (withInputs · ins)]; rfl)
  case rest d => exact congrArg _ (by rw [apply_ite (withInputs · ins)]; rfl)
  case endSong d => exact congrArg _ (by unfold State.notify; rw [apply_ite (withInputs · ins)]; rfl)
  case sync d =>
    exact congrArg _ (by
      unfold State.notify
      rw [apply_ite State.setWaiting, ite_apply, apply_ite State.advance, apply_ite State.setWaiting, ite_apply,
        apply_ite State.advance, apply_ite (withInputs · ins)]
      rfl)
  all_goals rfl

/-- The sequencer neither reads nor writes the schedule. -/
theorem sequencerCycle_withInputs (s : State) (ins : List CycleInput) :
    sequencerCycle (withInputs s ins) = andThen (sequencerCycle s) (fun t => .next (withInputs t ins)) := by
  have hst : (withInputs s ins).seq.state = s.seq.state := rfl
  have hen : (withInputs s ins).playbackEnabled = s.playbackEnabled := rfl
  have hfe : (withInputs s ins).fetchNote = s.fetchNote := rfl
  unfold sequencerCycle
  rw [hst]
  cases s.seq.state with
  | idle =>
    simp only [hen]
    cases s.playbackEnabled with
    | false => rfl
    | true =>
      simp only [if_true, dispatchEntry, hfe]
      cases s.fetchNote with
      | overrun => rfl
      | unwritten => rfl
      | entry e => exact exec_withInputs _ s ins
  | tone =>
    simp only [andThen_next]
    exact congrArg _ (by unfold toneCycle; rw [apply_ite (withInputs · ins)]; rfl)
  | rest =>
    simp only [andThen_next]
    exact congrArg _ (by unfold restCycle; rw [apply_ite (withInputs · ins)]; rfl)
  | fault => rfl

/-- The receive path neither reads nor writes the schedule. -/
theorem receiverCycle_withInputs (i : CycleInput) (s : State) (ins : List CycleInput) :
    receiverCycle i (withInputs s ins) = andThen (receiverCycle i s) (fun t => .next (withInputs t ins)) := by
  unfold receiverCycle
  cases i.rx with
  | none => rfl
  | some b =>
    have hst : (withInputs s ins).frame.state = s.frame.state := rfl
    simp only [receiveByte, hst]
    cases s.frame.state with
    | idle => exact exec_withInputs _ s ins
    | lenHi => rfl
    | lenLo => rfl
    | payload =>
      have hacc : (withInputs s ins).accept = s.accept := rfl
      simp only [payloadByte, hacc]
      cases s.accept with
      | false => rfl
      | true =>
        simp only [if_true]
        rcases acceptByte_cases b s with ⟨h, e⟩ | ⟨h, e⟩ | ⟨h, e⟩
        · have := acceptByte_cases b (withInputs s ins)
          rw [show triplePlace (withInputs s ins).frame.count = 0 from h] at this
          simp only [Nat.reduceEqDiff, false_and, or_false, true_and, zero_ne_one] at this
          rw [e, this]; rfl
        · have := acceptByte_cases b (withInputs s ins)
          rw [show triplePlace (withInputs s ins).frame.count = 1 from h] at this
          simp only [Nat.reduceEqDiff, false_and, or_false, true_and, false_or, one_ne_zero] at this
          rw [e, this]; rfl
        · have := acceptByte_cases b (withInputs s ins)
          rw [show triplePlace (withInputs s ins).frame.count = 2 from h] at this
          simp only [Nat.reduceEqDiff, false_and, false_or, true_and, OfNat.ofNat_ne_zero] at this
          rw [e, this]
          unfold State.sbWrite
          have hc : tripleSlot (withInputs s ins).frame.count = tripleSlot s.frame.count := rfl
          rw [hc]
          split <;> rfl
    | check =>
      simp only [andThen_next]
      refine congrArg _ ?_
      unfold checkByte judgeFrame
      rw [apply_ite completeFrame, apply_ite completeFrame, apply_ite completeFrame]
      rw [apply_ite completeFrame, apply_ite completeFrame, apply_ite completeFrame]
      rw [apply_ite (withInputs · ins), apply_ite (withInputs · ins), apply_ite (withInputs · ins)]
      rfl

/-- What is scheduled after a cycle does not reach the cycle. -/
theorem step_withInputs (s : State) (i : CycleInput) (rest more : List CycleInput) :
    step (withInputs s (i :: more)) =
      andThen (step (withInputs s (i :: rest))) (fun t => .next (withInputs t more)) := by
  have hc : ∀ r, (withInputs s (i :: r)).currentInput = i := fun _ => rfl
  have ht : ∀ r, (withInputs s (i :: r)).takeInput = withInputs s r := fun _ => rfl
  have hb : ∀ r, beginCycle i (withInputs s r) = withInputs (beginCycle i s) r := by
    intro r
    unfold beginCycle transmitCycle
    rw [apply_ite (withInputs · r), apply_ite (withInputs · r)]
    rfl
  unfold step clockCycle runCycle
  rw [hc, hc, ht, ht]
  cases i.rst with
  | true => rfl
  | false =>
    simp only [Bool.false_eq_true, if_false, activeCycle, hb, sequencerCycle_withInputs]
    cases sequencerCycle (beginCycle i s) with
    | fault e => rfl
    | refused e => rfl
    | next s₁ =>
      simp only [andThen_next, receiverCycle_withInputs]
      cases receiverCycle i s₁ <;> rfl

/-- A run of a schedule cut in two. -/
theorem runsTo_append {s t : State} {ins more : List CycleInput} :
    RunsTo s (ins ++ more) t ↔ ∃ u, RunsTo s ins u ∧ RunsTo u more t := by
  induction ins generalizing s with
  | nil =>
    simp only [List.nil_append, runsTo_nil]
    constructor
    · intro h; exact ⟨_, rfl, h⟩
    · rintro ⟨u, rfl, h⟩; exact h
  | cons i ins ih =>
    simp only [List.cons_append, runsTo_cons, ih]
    rw [step_withInputs s i ins (ins ++ more)]
    constructor
    · rintro ⟨u, hu, v, hv, ht⟩
      obtain ⟨w, hw, hwu⟩ := andThen_eq_next.mp hu
      cases hwu
      exact ⟨v, ⟨w, hw, hv⟩, ht⟩
    · rintro ⟨v, ⟨w, hw, hv⟩, ht⟩
      exact ⟨withInputs w (ins ++ more), andThen_eq_next.mpr ⟨w, hw, rfl⟩, v, hv, ht⟩

end Sys2Proof.Machine
end

