-- ==== Sys2Proof/Laws/PerInstr.lean ====
section
/-! SUPPORT. What holds of every instruction as syntax, one lemma a constructor: the encoding of a well-formed
instruction is of a row of the opcode table that bears its mnemonic. -/

namespace Sys2Proof.Laws

/-- The low 16 bits of a note word, its duration, are under no row's mask. -/
theorem noteWord_and_mask (p : Byte) (d : Half) (m : Nat) :
    (noteWord p d).toNat &&& (m * 65536) = (p.toNat &&& m) * 65536 := by
  have hp : p.toNat = (noteWord p d).toNat >>> 16 := by
    rw [noteWord_toNat, Nat.shiftRight_eq_div_pow]
    have := d.isLt
    omega
  have shift : ∀ x : Nat, x * 65536 = x <<< 16 := fun x => by rw [Nat.shiftLeft_eq]
  rw [hp, shift, shift, Nat.shiftLeft_and_distrib]
  apply Nat.eq_of_testBit_eq
  intro j
  simp only [Nat.testBit_and, Nat.testBit_shiftLeft, Nat.testBit_shiftRight]
  by_cases h : 16 ≤ j <;> simp [h]

/-- A note word is of a row exactly by its pitch. -/
theorem covers_noteWord (name : String) (p : Byte) (d : Half) (pattern mask : Nat)
    (h : p.toNat &&& mask = pattern) :
    (TableRow.mk name 24 (pattern * 65536) (mask * 65536)).covers 24 (noteWord p d).toNat = true := by
  simp [TableRow.covers, noteWord_and_mask, h]

namespace RowMatch

/-- The word of a well-formed instruction is of a row of the opcode table with the instruction's mnemonic. -/
def Statement (i : Instr) : Prop :=
  i.wellFormed = true →
    ∃ r ∈ opcodeTable, r.mnemonic = i.mnemonic ∧ r.covers (encode i).width (encode i).value = true

/-- A header event with the row of its event. -/
theorem header {i : Instr} {b : Byte} (r : TableRow) (he : encode i = .hdr b) (hr : r ∈ opcodeTable)
    (hn : r.mnemonic = i.mnemonic) (hc : r.covers 8 b.toNat = true) : Statement i :=
  fun _ => ⟨r, hr, hn, by rw [he]; exact hc⟩

/-- A note code with the row of its pitch. -/
theorem note {i : Instr} {p : Byte} {d : Half} (name : String) (pattern mask : Nat)
    (he : encode i = .note (noteWord p d)) (hn : name = i.mnemonic)
    (hr : ⟨name, 24, pattern * 65536, mask * 65536⟩ ∈ opcodeTable) (hp : p.toNat &&& mask = pattern) : Statement i :=
  fun _ => ⟨_, hr, hn, by rw [he]; exact covers_noteWord _ p d pattern mask hp⟩

theorem nop : ∀ n, Statement (.nop n) := fun n => header ⟨"NOP", 8, 0x00, 0xF0⟩ rfl (by decide) rfl (by decide +revert)
theorem load : ∀ n, Statement (.load n) := fun n => header ⟨"LOAD", 8, 0x10, 0xF0⟩ rfl (by decide) rfl (by decide +revert)
theorem rsv2 : ∀ n, Statement (.rsv2 n) := fun n => header ⟨"RSV2", 8, 0x20, 0xF0⟩ rfl (by decide) rfl (by decide +revert)
theorem start : ∀ n, Statement (.start n) := fun n => header ⟨"START", 8, 0x30, 0xF0⟩ rfl (by decide) rfl (by decide +revert)
theorem stop : ∀ n, Statement (.stop n) := fun n => header ⟨"STOP", 8, 0x40, 0xF0⟩ rfl (by decide) rfl (by decide +revert)
theorem startn : ∀ n, Statement (.startn n) := fun n => header ⟨"STARTN", 8, 0x50, 0xF0⟩ rfl (by decide) rfl (by decide +revert)
theorem stopn : ∀ n, Statement (.stopn n) := fun n => header ⟨"STOPN", 8, 0x60, 0xF0⟩ rfl (by decide) rfl (by decide +revert)
theorem rsv7 : ∀ n, Statement (.rsv7 n) := fun n => header ⟨"RSV7", 8, 0x70, 0xF0⟩ rfl (by decide) rfl (by decide +revert)
theorem syncack : ∀ n, Statement (.syncack n) := fun n => header ⟨"SYNCACK", 8, 0x80, 0xF0⟩ rfl (by decide) rfl (by decide +revert)
theorem rsv9 : ∀ n, Statement (.rsv9 n) := fun n => header ⟨"RSV9", 8, 0x90, 0xF0⟩ rfl (by decide) rfl (by decide +revert)
theorem rsva : ∀ n, Statement (.rsva n) := fun n => header ⟨"RSVA", 8, 0xA0, 0xF0⟩ rfl (by decide) rfl (by decide +revert)
theorem rsvb : ∀ n, Statement (.rsvb n) := fun n => header ⟨"RSVB", 8, 0xB0, 0xF0⟩ rfl (by decide) rfl (by decide +revert)
theorem rsvc : ∀ n, Statement (.rsvc n) := fun n => header ⟨"RSVC", 8, 0xC0, 0xF0⟩ rfl (by decide) rfl (by decide +revert)
theorem rsvd : ∀ n, Statement (.rsvd n) := fun n => header ⟨"RSVD", 8, 0xD0, 0xF0⟩ rfl (by decide) rfl (by decide +revert)
theorem hoste : ∀ n, Statement (.hoste n) := fun n => header ⟨"HOSTE", 8, 0xE0, 0xF0⟩ rfl (by decide) rfl (by decide +revert)
theorem hostf : ∀ n, Statement (.hostf n) := fun n => header ⟨"HOSTF", 8, 0xF0, 0xF0⟩ rfl (by decide) rfl (by decide +revert)

theorem tone : ∀ p d, Statement (.tone p d) := fun p d =>
  note (p := p.setWidth 8) (d := d) "TONE" 0x00 0x80 rfl rfl (by decide) (by decide +revert)
theorem rest : ∀ d, Statement (.rest d) := fun d => note (p := 255) (d := d) "REST" 0xFF 0xFF rfl rfl (by decide) (by decide)
theorem endSong : ∀ d, Statement (.endSong d) := fun d => note (p := 254) (d := d) "END" 0xFE 0xFF rfl rfl (by decide) (by decide)
theorem sync : ∀ d, Statement (.sync d) := fun d => note (p := 253) (d := d) "SYNC" 0xFD 0xFF rfl rfl (by decide) (by decide)

/-- The six masks of the reserved pitches cover 128..252. -/
theorem reservedPitch_masks : ∀ p : Byte, 128 ≤ p.toNat → p.toNat ≤ 252 →
    p.toNat &&& 0xC0 = 0x80 ∨ p.toNat &&& 0xE0 = 0xC0 ∨ p.toNat &&& 0xF0 = 0xE0 ∨
    p.toNat &&& 0xF8 = 0xF0 ∨ p.toNat &&& 0xFC = 0xF8 ∨ p.toNat &&& 0xFF = 0xFC := by decide

theorem rsvp : ∀ p d, Statement (.rsvp p d) := by
  intro p d hw
  have hb : 128 ≤ p.toNat ∧ p.toNat ≤ 252 := by simpa [Instr.wellFormed] using hw
  rcases reservedPitch_masks p hb.1 hb.2 with h | h | h | h | h | h
  · exact note (i := .rsvp p d) "RSVP" 0x80 0xC0 rfl rfl (by decide) h hw
  · exact note (i := .rsvp p d) "RSVP" 0xC0 0xE0 rfl rfl (by decide) h hw
  · exact note (i := .rsvp p d) "RSVP" 0xE0 0xF0 rfl rfl (by decide) h hw
  · exact note (i := .rsvp p d) "RSVP" 0xF0 0xF8 rfl rfl (by decide) h hw
  · exact note (i := .rsvp p d) "RSVP" 0xF8 0xFC rfl rfl (by decide) h hw
  · exact note (i := .rsvp p d) "RSVP" 0xFC 0xFF rfl rfl (by decide) h hw

end RowMatch

end Sys2Proof.Laws
end

