-- ==== Sys2Proof/Tests/Slice0.lean ====
section
/-! SUPPORT. Tests of one step or one word each, with the expected results of 30_encoding.md and 95_test_vectors.md, and
for every statement with hypotheses a named witness that meets them. -/

namespace Sys2Proof.Tests

open Sys2Proof Sys2Proof.Machine Sys2Proof.Safety Sys2Proof.Claims

/-! ## Small states -/

/-- A node after reset with a node ID. -/
def node (n : Nibble) : State := { State.resetWith 0 [] with nodeid := n }

/-- A playing node at a cursor of a buffer. -/
def playing (n : Nibble) (sb : SongBuffer) (pos : Half) : State :=
  { node n with
    sb := sb
    seq := ⟨pos, .idle, 0⟩
    flags := { (node n).flags with isMusicPlaying := true } }

/-- A node blocked on a barrier, which dispatches nothing. -/
def waiting (n : Nibble) (pos : Half) : State := (playing n [] pos).setWaiting true

/-- A node with a tone in progress, `wait` cycles left. -/
def sounding (n : Nibble) (wait : Nat) : State :=
  { playing n [(0, ⟨10, 5⟩)] 0 with
    seq := ⟨0, .tone, wait⟩
    timer := ⟨true, 0xFFF0, 0xFFF0, 0, false⟩ }

/-- The receiver of a node at a state of a load frame. -/
def inFrame (s : State) (st : FrameState) (len count : Half) (csum : Byte) (matched oversize : Bool) : State :=
  { s with frame := ⟨st, 1, s.nodeid, len, count, csum, matched, oversize, 0, 0⟩ }

/-- A byte in the coming cycle. -/
def rx (b : Byte) : CycleInput := { rx := some b }

/-- The byte `b` comes next. -/
def on (s : State) (b : Byte) : State := { s with inputs := [rx b] }

/-- What a step leaves, as `f` reads it. -/
def after {α : Type} (s : State) (f : State → α) : Option α :=
  match step s with
  | .next t => some (f t)
  | .fault _ => none
  | .refused _ => none

/-- The three flags and the cursor that commands write. -/
def playback (t : State) : Bool × Bool × Half := (t.flags.isMusicPlaying, t.flags.isWaitingForSync, t.seq.pos)

/-- The response slot, `uartBusy`, and what the transmitter drove. -/
def slot (t : State) : Bool × Byte × Bool × Option Byte :=
  (t.flags.sendResponse, t.flags.responseData, t.flags.uartBusy, t.out.tx)

/-- The response slot alone. -/
def pending (t : State) : Bool × Byte := (t.flags.sendResponse, t.flags.responseData)

/-- A byte on a waiting node changes nothing but `fr_event` and `fr_param` (V-HD1, V-HD11). -/
abbrev Ignored (b : Byte) (event param : Nibble) : Prop :=
  after (on (waiting 3 5) b) id =
    some { waiting 3 5 with frame := { (waiting 3 5).frame with event := event, param := param } }

/-! ## Well-formedness -/

theorem test_rsvp_below_its_range_is_refused : (Instr.rsvp 127 0).wellFormed = false := by decide
theorem test_rsvp_above_its_range_is_refused : (Instr.rsvp 253 0).wellFormed = false := by decide
theorem test_rsvp_at_both_ends : (Instr.rsvp 128 0).wellFormed = true ∧ (Instr.rsvp 252 0).wellFormed = true := by decide
theorem test_load_frame_too_long_is_refused : (LoadFrame.mk 3 (List.replicate 65536 0) 0).wellFormed = false := by
  simp only [LoadFrame.wellFormed, List.length_replicate]; decide

/-! ## Decoding: words written out from 30_encoding.md -/

theorem test_decode_nop : decode (.hdr 0b00000000) = .nop 0 := by decide
theorem test_decode_load : decode (.hdr 0b00010011) = .load 3 := by decide
theorem test_decode_rsv2 : decode (.hdr 0b00101111) = .rsv2 15 := by decide
theorem test_decode_start : decode (.hdr 0b00111111) = .start 15 := by decide
theorem test_decode_stop : decode (.hdr 0b01000000) = .stop 0 := by decide
theorem test_decode_startn : decode (.hdr 0b01010011) = .startn 3 := by decide
theorem test_decode_stopn : decode (.hdr 0b01100100) = .stopn 4 := by decide
theorem test_decode_rsv7 : decode (.hdr 0b01111000) = .rsv7 8 := by decide
theorem test_decode_syncack : decode (.hdr 0b10001010) = .syncack 10 := by decide
theorem test_decode_rsv9 : decode (.hdr 0b10010001) = .rsv9 1 := by decide
theorem test_decode_rsva : decode (.hdr 0b10100010) = .rsva 2 := by decide
theorem test_decode_rsvb : decode (.hdr 0b10110100) = .rsvb 4 := by decide
theorem test_decode_rsvc : decode (.hdr 0b11001000) = .rsvc 8 := by decide
theorem test_decode_rsvd : decode (.hdr 0b11010110) = .rsvd 6 := by decide
theorem test_decode_hoste : decode (.hdr 0b11100000) = .hoste 0 := by decide
theorem test_decode_hostf : decode (.hdr 0b11110001) = .hostf 1 := by decide
theorem test_decode_tone : decode (.note 0b001111000000000001100100) = .tone 60 100 ∧
    decode (.note 0x7FFFFF) = .tone 127 0xFFFF := by decide
theorem test_decode_rsvp : decode (.note 0b100000000000000000001010) = .rsvp 128 10 ∧
    decode (.note 0xFC000A) = .rsvp 252 10 := by decide
theorem test_decode_sync : decode (.note 0b111111010000000000001001) = .sync 9 := by decide
theorem test_decode_end : decode (.note 0b111111100000000000000111) = .endSong 7 := by decide
theorem test_decode_rest : decode (.note 0b111111110000000000110010) = .rest 50 := by decide
theorem test_decode_bytes :
    decodeBytes .notes [0x3C, 0x01, 0x02, 0xFF] = .ok (.tone 60 0x0102, [0xFF]) ∧
    decodeBytes .notes [0x3C, 0x01] = .error .partialTriple ∧
    decodeBytes .headers [0x35, 0x40] = .ok (.start 5, [0x40]) := by
  refine ⟨rfl, rfl, rfl⟩
theorem test_decode_table_words : decodeTableWord 8 0x53 = some (.startn 3) ∧
    decodeTableWord 24 0xFE0000 = some (.endSong 0) ∧ decodeTableWord 16 0 = none := by decide
theorem test_fetch_header_at_reset :
    after (State.reset.withFetchWord 8 0x30) playback = some (true, false, 0) := by decide
theorem test_fetch_note_at_reset :
    after (State.reset.withFetchWord 24 0x0A0005) (fun t => (playback t, t.seq.state, t.faults)) =
      some ((true, false, 0), .tone, FaultSet.empty) := by decide

/-! ## Header events (V-HD) -/

theorem test_nop : Ignored 0x00 0x0 0 := by decide
theorem test_rsv2 : Ignored 0x2F 0x2 15 := by decide
theorem test_rsv7 : Ignored 0x7F 0x7 15 := by decide
theorem test_rsv9 : Ignored 0x90 0x9 0 := by decide
theorem test_rsva : Ignored 0xA3 0xA 3 := by decide
theorem test_rsvb : Ignored 0xB3 0xB 3 := by decide
theorem test_rsvc : Ignored 0xC3 0xC 3 := by decide
theorem test_rsvd : Ignored 0xDF 0xD 15 := by decide
theorem test_hoste : Ignored 0xE0 0xE 0 := by decide
theorem test_hostf : Ignored 0xF1 0xF 1 := by decide
/-- V-HD3. -/
theorem test_start_ignores_param : after (on (node 3) 0x3F) playback = some (true, false, 0) := by decide
/-- V-HD4. -/
theorem test_stop : after (on (waiting 3 5) 0x40) playback = some (false, false, 0) := by decide
/-- V-HD5, V-HD6. -/
theorem test_startn : after (on (node 3) 0x53) playback = some (true, false, 0) ∧
    after (on (node 3) 0x52) playback = some (false, false, 0) := by decide
/-- V-HD7, V-HD8, on a node that is waiting at 4. -/
theorem test_stopn : after (on (waiting 3 4) 0x63) playback = some (false, false, 0) ∧
    after (on (waiting 3 4) 0x64) playback = some (true, true, 4) := by decide
/-- V-HD9. -/
theorem test_syncack : after (on (waiting 3 3) 0x80) playback = some (true, false, 3) := by decide
/-- V-HD12, V-HD14. -/
theorem test_load_addressed :
    after (on ((node 3).setReady true) 0x13) (fun t => (t.frame.state, t.frame.matched, t.flags.dataReady)) =
      some (.lenHi, true, false) ∧
    after (on (node 15) 0x1F) (·.frame.matched) = some true := by decide
/-- V-HD13. -/
theorem test_load_not_addressed :
    after (on ((node 3).setReady true) 0x14) (fun t => (t.frame.state, t.frame.matched, t.flags.dataReady)) =
      some (.lenHi, false, true) := by decide

/-! ## Load frames byte by byte (V-LD) -/

/-- V-LD2: a length of 0 goes to `CHECK`. -/
theorem test_length_zero : after (on (inFrame (node 4) .lenLo 0 0 0 true false) 0x00) (·.frame.state) = some .check := by
  decide
/-- V-LD7 and V-LD8: 1802 is in capacity, 1803 is not. -/
theorem test_length_capacity :
    after (on (inFrame (node 4) .lenLo 0x0700 0 0 true false) 0x0A) (fun t => (t.frame.len, t.frame.oversize)) =
      some (1802, false) ∧
    after (on (inFrame (node 4) .lenLo 0x0700 0 0 true false) 0x0B) (fun t => (t.frame.len, t.frame.oversize)) =
      some (1803, true) := by decide
/-- V-LD11. -/
theorem test_length_high_byte_first :
    after (on (inFrame (node 4) .lenHi 0 0 0 true false) 0xFF) (fun t => (t.frame.state, t.frame.len)) =
      some (.lenLo, 0xFF00) := by decide
/-- V-LD12: the third byte of a triple writes the entry, big-endian. -/
theorem test_payload_third_byte :
    after (on { inFrame (node 4) .payload 3 2 0x70 true false with
        frame := ⟨.payload, 1, 4, 3, 2, 0x70, true, false, 0x30, 0x40⟩ } 0x80)
      (fun t => (t.sb, t.frame.state, t.frame.csum, t.frame.count)) =
      some ([(0, ⟨48, 0x4080⟩)], .check, 0xF0, 3) := by decide
/-- V-LD4: a partial triple's byte is XORed and staged, and nothing is written. -/
theorem test_payload_partial_triple :
    after (on (inFrame (node 4) .payload 1 0 0 true false) 0xAA)
      (fun t => (t.sb, t.frame.state, t.frame.csum, t.frame.stagePitch)) = some ([], .check, 0xAA, 0xAA) := by decide
/-- V-LD1, V-LD6: the check byte decides. -/
theorem test_check_byte :
    after (on (inFrame (node 3) .check 9 9 0x6B true false) 0x6B) (fun t => (t.flags.dataReady, pending t)) =
      some (true, true, 0xE0) ∧
    after (on (inFrame (node 4) .check 3 3 0x00 true false) 0x55) (fun t => (t.flags.dataReady, pending t)) =
      some (false, true, 0xF0) := by decide
/-- V-LD8, V-LD10: oversize, and another node's frame. -/
theorem test_check_byte_oversize_and_foreign :
    after (on (inFrame (node 4) .check 1803 1803 0 true true) 0x00) (fun t => (t.flags.dataReady, pending t)) =
      some (false, true, 0xF1) ∧
    after (on (inFrame ((node 4).setReady true) .check 3 3 0 false false) 0x00)
      (fun t => (t.flags.dataReady, pending t)) = some (true, false, 0) := by decide

/-! ## Note codes (V-SQ) -/

/-- V-SQ5. -/
theorem test_tone_dispatch :
    after (playing 3 [(0, ⟨10, 5⟩)] 0) (fun t => (t.seq.state, t.timer.en, t.seq.pos)) = some (.tone, true, 0) ∧
    after (playing 3 [(0, ⟨10, 5⟩)] 0) (fun t => (t.seq.wait, t.timer.reload, t.timer.count)) =
      some (5 * Config.unitCycles, romReload 10, romReload 10) := by
  exact ⟨by decide, rfl⟩
/-- V-SQ1, the second entry. -/
theorem test_tone_of_no_duration :
    after (playing 3 [(0, ⟨255, 0⟩), (1, ⟨5, 0⟩)] 1) (fun t => (t.seq.state, t.timer.en, playback t)) =
      some (.idle, false, true, false, 2) := by decide
/-- V-SQ12 and V-SQ1. -/
theorem test_rest_dispatch :
    after (playing 3 [(0, ⟨255, 3⟩)] 0) (fun t => (t.seq.state, t.timer.en, t.seq.pos)) = some (.rest, false, 0) ∧
    after (playing 3 [(0, ⟨255, 0⟩)] 0) (fun t => (t.seq.state, t.seq.pos)) = some (.idle, 1) := by decide
/-- V-SQ2, V-SQ3. -/
theorem test_sync :
    after (playing 3 [(0, ⟨253, 9⟩)] 0) (fun t => (playback t, t.flags.sendResponse)) = some ((true, true, 1), false) ∧
    after (playing 0 [(0, ⟨253, 0⟩)] 0) (fun t => (playback t, slot t)) =
      some ((true, true, 1), true, 0x70, false, none) := by decide
/-- V-SQ1, the third entry, and V-SQ4. -/
theorem test_end :
    after (playing 3 [(2, ⟨254, 7⟩)] 2) (fun t => (playback t, t.flags.sendResponse)) =
      some ((false, false, 0), false) ∧
    after (playing 0 [(0, ⟨254, 0⟩)] 0) (fun t => (playback t, slot t)) =
      some ((false, false, 0), true, 0x20, false, none) := by decide
/-- V-SQ6, V-SQ7. -/
theorem test_rsvp :
    after (playing 3 [(0, ⟨0x80, 10⟩)] 0) (fun t => (t.faults, t.seq.state, t.seq.pos)) =
      some (⟨true, false, false⟩, .fault, 0) ∧
    after (playing 3 [(0, ⟨0xFC, 10⟩)] 0) (fun t => (t.faults, t.seq.state, t.seq.pos)) =
      some (⟨true, false, false⟩, .fault, 0) := by decide
/-- V-SQ8, after 0 and after 2. -/
theorem test_cursor_overrun :
    after (playing 3 [(599, ⟨253, 0⟩)] 599) playback = some (true, true, 600) ∧
    after (playing 3 [(599, ⟨253, 0⟩)] 600) (fun t => (t.faults, t.seq.state, t.seq.pos)) =
      some (⟨false, true, false⟩, .fault, 600) := by decide
/-- V-SQ9. -/
theorem test_unwritten_entry :
    after (playing 5 [] 0) (fun t => (t.faults, t.seq.state)) = some (⟨false, false, true⟩, .fault) := by decide
/-- V-SQ10: a stop leaves the tone in progress, and V-SQ5: its last cycle. -/
theorem test_tone_in_progress :
    after (on (sounding 3 5) 0x40) (fun t => (playback t, t.seq.state, t.seq.wait)) =
      some ((false, false, 0), .tone, 4) ∧
    after (sounding 3 1) (fun t => (t.timer.en, t.seq.pos, t.seq.state)) = some (false, 1, .idle) := by decide
/-- V-SQ11: in the completion cycle the dispatcher wins over the advance. -/
theorem test_start_in_last_cycle :
    after (on (sounding 3 1) 0x30) (fun t => (playback t, t.seq.state)) = some ((true, false, 0), .idle) := by decide

/-! ## Tone timer (V-TM) -/

/-- V-TM3, the counts of cycles 2 and 4. -/
theorem test_timer_count :
    timerCount ⟨true, 0xFFFE, 0xFFFE, 1, false⟩ = ⟨true, 0xFFFE, 0xFFFF, 0, false⟩ ∧
    timerCount ⟨true, 0xFFFE, 0xFFFF, 1, false⟩ = ⟨true, 0xFFFE, 0xFFFE, 0, true⟩ := by decide

/-! ## Buttons and boot (V-BT) -/

/-- V-BT1, V-BT2. -/
theorem test_buttons_wrap :
    after { node 15 with inputs := [{ btnInc := true }] } (fun t => (t.nodeid, t.out.nv)) =
      some (0, some (0, 0x00)) ∧
    after { node 0 with inputs := [{ btnDec := true }] } (fun t => (t.nodeid, t.out.nv)) =
      some (15, some (0, 0x0F)) := by decide
/-- V-BT3, V-BT4. -/
theorem test_buttons_ignored :
    after { node 7 with inputs := [{ btnInc := true, btnDec := true }] } (fun t => (t.nodeid, t.out.nv)) =
      some (7, none) ∧
    after { waiting 7 0 with inputs := [{ btnInc := true }] } (fun t => (t.nodeid, t.out.nv)) = some (7, none) := by
  decide
/-- The boot table of V-BT. -/
theorem test_boot : bootNodeId 0x07 = 7 ∧ bootNodeId 0x0F = 15 ∧ bootNodeId 0x10 = 0 ∧ bootNodeId 0xFF = 0 := by decide
/-- R270: a reset cycle ignores the byte and the button, and drives nothing. -/
theorem test_reset_cycle :
    after { playing 3 [(0, ⟨10, 5⟩)] 0 with
        inputs := [{ rst := true, nvBoot := 0x0F, rx := some 0x30, btnInc := true }] }
      (fun t => (t.nodeid, t.flags, t.sb, t.out)) =
      some (15, ⟨false, false, false, false, 0, false⟩, [], ⟨none, none⟩) := by decide

/-! ## Transmitter and merges (V-TX, V-MG) -/

/-- V-TX1, cycles 0 to 2. -/
theorem test_transmitter :
    after { playing 0 [(0, ⟨254, 0⟩)] 0 with flags := ⟨true, false, false, false, 0, true⟩ } slot =
      some (true, 0x20, true, none) ∧
    after { node 0 with flags := ⟨false, false, false, true, 0x20, true⟩, inputs := [{ txDone := true }] } slot =
      some (true, 0x20, false, none) ∧
    after { node 0 with flags := ⟨false, false, false, true, 0x20, false⟩ } slot =
      some (false, 0x20, true, some 0x20) := by decide
/-- V-TX3: the queue wins over the drain's clear. V-TX4. -/
theorem test_queue_wins_over_drain :
    after { playing 0 [(0, ⟨253, 0⟩)] 0 with flags := ⟨true, false, false, true, 0xE0, false⟩ } slot =
      some (true, 0x70, true, some 0xE0) ∧
    after { node 0 with inputs := [{ txDone := true }] } id = some (node 0) := by decide
/-- V-MG1, V-MG2. -/
theorem test_command_wins :
    after (on (playing 0 [(0, ⟨254, 0⟩)] 0) 0x30) (fun t => (playback t, pending t)) =
      some ((true, false, 0), true, 0x20) ∧
    after (on (playing 0 [(0, ⟨253, 0⟩)] 0) 0x40) (fun t => (playback t, pending t)) =
      some ((false, false, 0), true, 0x70) := by decide
/-- V-MG3. -/
theorem test_syncack_wins :
    after (on (playing 3 [(0, ⟨253, 0⟩)] 0) 0x80) playback = some (true, false, 1) := by decide
/-- V-MG4, V-MG5. -/
theorem test_receiver_wins :
    after (on (inFrame (playing 0 [(0, ⟨254, 0⟩)] 0) .check 3 3 0x12 true false) 0x12)
      (fun t => (playback t, t.flags.dataReady, t.flags.responseData)) = some ((false, false, 0), true, 0xE0) ∧
    after (on (inFrame (playing 0 [(0, ⟨253, 0⟩)] 0) .check 3 3 5 true false) 0x06)
      (fun t => (playback t, t.flags.dataReady, t.flags.responseData)) = some ((true, true, 1), false, 0xF0) := by
  decide

/-! ## Witnesses: states and operands that meet the hypotheses of the statements, clause by clause -/

theorem timerDiv_pos : 0 < Config.timerDiv := Nat.succ_pos _
theorem unitCycles_pos : 0 < Config.unitCycles := Nat.succ_pos _

/-- Bytes in consecutive cycles. -/
def cycles (bytes : List Byte) : List CycleInput := bytes.map rx

/-- Bytes with a cycle without one before each. -/
def spaced (bytes : List Byte) : List CycleInput := bytes.flatMap (fun b => [{}, rx b])

theorem spaced_noReset (bytes : List Byte) : NoReset (spaced bytes) := by
  intro i hi
  obtain ⟨b, -, h⟩ := List.mem_flatMap.mp hi
  rcases List.mem_pair.mp h with rfl | rfl <;> rfl
theorem spaced_delivers (bytes : List Byte) : Delivers (spaced bytes) bytes := by
  induction bytes with
  | nil => rfl
  | cons b rest ih => exact congrArg (b :: ·) ih
theorem spaced_endsOnByte (bytes : List Byte) (b : Byte) : EndsOnByte (spaced (bytes ++ [b])) := by
  simp [EndsOnByte, spaced, rx]
theorem spaced_frame_endsOnByte (f : LoadFrame) : EndsOnByte (spaced f.bytes) :=
  spaced_endsOnByte (headerByte 0x1 f.target :: highByte f.length16 :: lowByte f.length16 :: f.payload) f.check

/-- The one cycle before the header leaves a node at rest as it is. -/
theorem spaced_beforeFirstByte (f : LoadFrame) : RunsTo (node 3) (beforeFirstByte (spaced f.bytes)) (node 3) := rfl

/-- `n` cycles with every input low. -/
def quiet (n : Nat) : List CycleInput := List.replicate n {}

theorem quiet_noReset (n : Nat) : NoReset (quiet n) := by
  intro i hi
  rw [List.eq_of_mem_replicate hi]
theorem quiet_noBytes (n : Nat) : NoBytes (quiet n) := by
  intro i hi
  rw [List.eq_of_mem_replicate hi]

/-- An idle sequencer is in no other state. -/
theorem idle_ne : SeqState.idle ≠ .tone ∧ SeqState.idle ≠ .rest ∧ SeqState.idle ≠ .fault ∧ SeqState.tone ≠ .fault := by
  decide

theorem inv_playing (n : Nibble) (sb : SongBuffer) (pos : Half) (hp : pos.toNat ≤ 600) (hb : SongBuffer.wf sb = true) :
    Inv (playing n sb pos) where
  frame := ⟨rfl, rfl, rfl, rfl, rfl⟩
  flags := fun _ => rfl
  sequencer := ⟨hp, fun h => h.elim (fun h => absurd h idle_ne.1) (fun h => absurd h idle_ne.2.1)⟩
  timer := ⟨⟨fun h => absurd h Bool.false_ne_true, fun h => absurd h idle_ne.1⟩, timerDiv_pos⟩
  fault := ⟨fun h => absurd h idle_ne.2.2.1, fun h => absurd rfl h⟩
  songBuffer := hb

theorem inv_sounding (n : Nibble) (wait : Nat) (h : 1 ≤ wait) (hw : wait < 65536) : Inv (sounding n wait) where
  frame := ⟨rfl, rfl, rfl, rfl, rfl⟩
  flags := fun _ => rfl
  sequencer := ⟨Nat.zero_le 600, fun _ =>
    ⟨(by decide : 0 < 600), h, Nat.lt_of_lt_of_le hw (Nat.le_mul_of_pos_right _ unitCycles_pos)⟩⟩
  timer := ⟨⟨fun _ => rfl, fun _ => rfl⟩, timerDiv_pos⟩
  fault := ⟨fun h => absurd h idle_ne.2.2.2, fun h => absurd rfl h⟩
  songBuffer := rfl

/-- One entry at the start of the buffer is a buffer in canonical form, and the sequencer dispatches it. -/
theorem dispatches_first (n : Nibble) (e : NoteEntry) : Dispatches (playing n [(0, e)] 0) e :=
  ⟨⟨rfl, rfl, rfl⟩, (by decide : 0 < 600), rfl⟩

/-! ### Encoding -/

theorem witness_DecodeEncodeRoundTrip :
    (Instr.rsvp 252 0xFFFF).wellFormed = true ∧ (Instr.tone 127 0xFFFF).wellFormed = true := by decide
theorem witness_BusBytesRoundTrip : (Instr.rsvp 128 0).wellFormed = true ∧ (Instr.hostf 15).wellFormed = true := by decide
theorem witness_FrameLengthFromThreeBytes :
    (LoadFrame.mk 3 (List.replicate 65535 0) 0).wellFormed = true ∧ headerEvent 0x2F ≠ 1 := by
  constructor
  · simp only [LoadFrame.wellFormed, List.length_replicate]; decide
  · decide

/-! ### Steps and instructions -/

theorem witness_StepRunsReceivedHeader :
    Receives (on (playing 3 [(0, ⟨10, 5⟩)] 0) 0x35) 0x35 ∧ FrameBoundary (on (playing 3 [(0, ⟨10, 5⟩)] 0) 0x35) := by
  decide
theorem witness_StepRunsDispatchedEntry :
    Active (on (playing 3 [(599, ⟨10, 5⟩)] 599) 0x35) ∧ Dispatches (on (playing 3 [(599, ⟨10, 5⟩)] 599) 0x35) ⟨10, 5⟩ :=
  ⟨rfl, ⟨rfl, rfl, rfl⟩, by decide, rfl⟩
theorem witness_RedeliveredCommandIsNeutral :
    headerEvent 0x53 ≠ 1 ∧ ∃ t, exec (decode (.hdr 0x53)) (waiting 3 5) = .next t := ⟨by decide, _, rfl⟩
theorem witness_DispatcherWritesOnlyPlaybackControl : headerEvent 0x40 ≠ 1 ∧ headerEvent 0xFF ≠ 1 := by decide

/-! ### One received byte -/

/-- Headers of every clause, received by node 3 at a frame boundary. -/
theorem witness_CommandOverridesTheSequencer :
    (Receives (on (playing 3 [] 0) 0x30) 0x30 ∧ FrameBoundary (on (playing 3 [] 0) 0x30) ∧ headerEvent 0x30 = 3) ∧
    (Receives (on (playing 3 [] 0) 0x53) 0x53 ∧ headerEvent 0x53 = 5 ∧
      headerParam 0x53 = (on (playing 3 [] 0) 0x53).nodeid) ∧
    (Receives (on (playing 3 [] 0) 0x4F) 0x4F ∧ headerEvent 0x4F = 4) ∧
    (Receives (on (playing 3 [] 0) 0x63) 0x63 ∧ headerEvent 0x63 = 6 ∧
      headerParam 0x63 = (on (playing 3 [] 0) 0x63).nodeid) ∧
    (Receives (on (playing 3 [] 0) 0x80) 0x80 ∧ headerEvent 0x80 = 8) := by decide
theorem witness_ForeignHeaderIsIgnored :
    (Receives (on (playing 3 [] 0) 0xFF) 0xFF ∧ FrameBoundary (on (playing 3 [] 0) 0xFF) ∧
      headerEvent 0xFF ∈ [0x0, 0x2, 0x7, 0x9, 0xA, 0xB, 0xC, 0xD, 0xE, 0xF]) ∧
    (Receives (on (playing 3 [] 0) 0x54) 0x54 ∧ FrameBoundary (on (playing 3 [] 0) 0x54) ∧
      headerEvent 0x54 ∈ [0x5, 0x6] ∧ headerParam 0x54 ≠ (on (playing 3 [] 0) 0x54).nodeid) := by decide
theorem witness_ResponseBytesAreIgnored : ∀ b ∈ [0xE0, 0xF0, 0xF1, 0x20, 0x70],
    Receives (on (playing 0 [] 0) b) b ∧ FrameBoundary (on (playing 0 [] 0) b) := by decide
theorem witness_LoadHeaderOpensAFrame :
    Receives (on (node 15) 0x1F) 0x1F ∧ FrameBoundary (on (node 15) 0x1F) ∧ headerEvent 0x1F = 1 := by decide
theorem witness_LengthBytesAreAssembled :
    (Receives (on (inFrame (node 4) .lenHi 0 0 0 true false) 0xFF) 0xFF ∧
      (on (inFrame (node 4) .lenHi 0 0 0 true false) 0xFF).frame.state = .lenHi) ∧
    (Receives (on (inFrame (node 4) .lenLo 0x0700 0 0 true false) 0x0B) 0x0B ∧
      (on (inFrame (node 4) .lenLo 0x0700 0 0 true false) 0x0B).frame.state = .lenLo ∧
      (0x070B : Half) = highByte 0x0700 ++ (0x0B : Byte)) := by decide
/-- The last triple's third byte of the longest frame in capacity, slot 599. -/
theorem witness_AcceptedPayloadByteIsStored :
    let s := on (inFrame (node 4) .payload 1802 1799 0 true false) 7
    Receives s 7 ∧ FrameInv s.frame ∧ s.frame.state = .payload ∧ s.frame.matched = true ∧ s.frame.oversize = false ∧
      s.frame.count.toNat % 3 = 2 :=
  ⟨by decide, ⟨by decide, by decide⟩, rfl, rfl, rfl, rfl⟩
theorem witness_DiscardedPayloadByteIsCounted :
    (Receives (on (inFrame (node 4) .payload 3 2 0 false false) 7) 7 ∧
      (on (inFrame (node 4) .payload 3 2 0 false false) 7).frame.matched = false) ∧
    (Receives (on (inFrame (node 4) .payload 1803 2 0 true true) 7) 7 ∧
      (on (inFrame (node 4) .payload 1803 2 0 true true) 7).frame.oversize = true) := by decide
theorem witness_CheckByteDecidesTheFrame :
    (Receives (on (inFrame (node 4) .check 3 3 5 false true) 5) 5 ∧
      (on (inFrame (node 4) .check 3 3 5 false true) 5).frame.matched = false) ∧
    (Receives (on (inFrame (node 4) .check 1803 1803 0 true true) 0) 0 ∧
      (on (inFrame (node 4) .check 1803 1803 0 true true) 0).frame.oversize = true) ∧
    (Receives (on (inFrame (node 4) .check 3 3 5 true false) 5) 5 ∧
      (5 : Byte) = (on (inFrame (node 4) .check 3 3 5 true false) 5).frame.csum) ∧
    (Receives (on (inFrame (node 4) .check 3 3 5 true false) 6) 6 ∧
      (6 : Byte) ≠ (on (inFrame (node 4) .check 3 3 5 true false) 6).frame.csum) := by decide
theorem witness_NoByteNoFrameChange : ReceivesNothing (inFrame (node 4) .payload 3 2 0 true false) := by decide

/-! ### Whole load frames -/

/-- Frames with idle cycles before and between their bytes, after none, some and all of which the run is looked at. -/
theorem witness_LoadFrameKeepsByteSync : ∀ f ∈ [LoadFrame.mk 3 [60, 0, 100] 0x58, LoadFrame.mk 5 [] 1],
    f.wellFormed = true ∧ FrameBoundary (node 3) ∧ NoReset (spaced f.bytes) ∧ Delivers (spaced f.bytes) f.bytes ∧
      (bytesOf ((spaced f.bytes).take 1)).length = 0 ∧ (bytesOf ((spaced f.bytes).take 7)).length = 3 ∧
      (bytesOf ((spaced f.bytes).take 14)).length = 4 + f.payload.length :=
  fun f hf => ⟨by revert f; decide, rfl, spaced_noReset _, spaced_delivers _, by revert f; decide, by revert f; decide,
    by revert f; decide⟩
/-- The longest payload in capacity, the shortest that is not. -/
theorem witness_LoadFrameOutcome :
    (∀ f : LoadFrame, NoReset (spaced f.bytes) ∧ Delivers (spaced f.bytes) f.bytes ∧ EndsOnByte (spaced f.bytes) ∧
      RunsTo (node 3) (beforeFirstByte (spaced f.bytes)) (node 3)) ∧ FrameBoundary (node 3) ∧
    ((LoadFrame.mk 4 [1] 1).wellFormed = true ∧ (4 : Nibble) ≠ (node 3).nodeid) ∧
    ((LoadFrame.mk 3 (List.replicate 1803 0) 0).wellFormed = true ∧ (3 : Nibble) = (node 3).nodeid ∧
      Config.maxNotes < (List.replicate 1803 (0 : Byte)).length / 3) ∧
    ((LoadFrame.mk 3 (List.replicate 1802 0) 0).wellFormed = true ∧
      (List.replicate 1802 (0 : Byte)).length / 3 ≤ Config.maxNotes ∧
      (0 : Byte) = xorAll (List.replicate 1802 0) ∧ (1 : Byte) ≠ xorAll (List.replicate 1802 0)) := by
  have zeros : ∀ n, xorAll (List.replicate n 0) = 0 := by
    intro n
    induction n with
    | zero => rfl
    | succ n ih => rw [List.replicate_succ, xorAll_cons, ih]; rfl
  refine ⟨fun f => ⟨spaced_noReset _, spaced_delivers _, spaced_frame_endsOnByte f, spaced_beforeFirstByte f⟩, rfl,
    by decide, ⟨?_, rfl, ?_⟩, ?_, ?_, (zeros _).symm, ?_⟩
  · simp only [LoadFrame.wellFormed, List.length_replicate]; decide
  · rw [List.length_replicate]; decide
  · simp only [LoadFrame.wellFormed, List.length_replicate]; decide
  · rw [List.length_replicate]; decide
  · rw [zeros]; decide
theorem witness_LoadedSongIsTheSongSent :
    let song := List.replicate 600 (NoteEntry.mk 60 100)
    let ins := spaced (LoadFrame.ofEntries (node 3).nodeid song).bytes
    song.length ≤ Config.maxNotes ∧ FrameBoundary (node 3) ∧ NoReset ins ∧
      RunsTo (node 3) (beforeFirstByte ins) (node 3) ∧
      Delivers ins (LoadFrame.ofEntries (node 3).nodeid song).bytes ∧ EndsOnByte ins :=
  ⟨by rw [List.length_replicate]; decide, rfl, spaced_noReset _, spaced_beforeFirstByte _, spaced_delivers _,
    spaced_frame_endsOnByte _⟩
theorem witness_ByteSyncIsTheSameOnEveryNode :
    let s := on (inFrame (node 4) .payload 3 1 0 true false) 7
    let s' := on (inFrame (playing 5 [] 0) .payload 3 1 0 false false) 7
    Active s ∧ Active s' ∧ s.currentInput.rx = s'.currentInput.rx ∧ s.frame.state = s'.frame.state ∧
      s.frame.len = s'.frame.len ∧ s.frame.count = s'.frame.count ∧
      (∃ t, step s = .next t) ∧ ∃ t', step s' = .next t' :=
  ⟨rfl, rfl, rfl, rfl, rfl, rfl, ⟨_, rfl⟩, ⟨_, rfl⟩⟩

/-! ### The sequencer and the timer -/

theorem witness_DisabledSequencerDoesNothing :
    (ReceivesNothing ((node 3).raiseFault .invalidPitch) ∧ ((node 3).raiseFault .invalidPitch).seq.state = .fault) ∧
    (ReceivesNothing (node 3) ∧ (node 3).seq.state = .idle ∧ (node 3).flags.isMusicPlaying = false) ∧
    (ReceivesNothing (waiting 3 5) ∧ (waiting 3 5).seq.state = .idle ∧
      (waiting 3 5).flags.isWaitingForSync = true) := by decide
/-- A node in the last cycle of a rest. -/
def resting : State := { node 3 with seq := ⟨0, .rest, 1⟩ }
theorem witness_EntryInProgressCountsDown :
    (ReceivesNothing (sounding 3 2) ∧ (sounding 3 2).seq.state = .tone ∧ 1 < (sounding 3 2).seq.wait) ∧
    (ReceivesNothing (sounding 3 1) ∧ (sounding 3 1).seq.state = .tone ∧ (sounding 3 1).seq.wait ≤ 1) ∧
    (ReceivesNothing resting ∧ resting.seq.state = .rest ∧ resting.seq.wait ≤ 1) := by decide
theorem witness_TimedEntryIsLatchedAtDispatch :
    (ReceivesNothing (playing 3 [(0, ⟨127, 1⟩)] 0) ∧ Dispatches (playing 3 [(0, ⟨127, 1⟩)] 0) ⟨127, 1⟩ ∧
      (playing 3 [(0, ⟨127, 1⟩)] 0).timer.en = false ∧ (1 : Half) ≠ 0 ∧ (127 : Byte).toNat ≤ 127) ∧
    (ReceivesNothing (playing 3 [(0, ⟨255, 1⟩)] 0) ∧ Dispatches (playing 3 [(0, ⟨255, 1⟩)] 0) ⟨255, 1⟩ ∧
      (playing 3 [(0, ⟨255, 1⟩)] 0).timer.en = false) :=
  ⟨⟨by decide, dispatches_first _ _, rfl, by decide, by decide⟩, by decide, dispatches_first _ _, rfl⟩
theorem witness_EndAndSyncCycle :
    (ReceivesNothing (playing 0 [(0, ⟨254, 7⟩)] 0) ∧ Dispatches (playing 0 [(0, ⟨254, 7⟩)] 0) ⟨254, 7⟩) ∧
    (ReceivesNothing (playing 0 [(0, ⟨253, 7⟩)] 0) ∧ Dispatches (playing 0 [(0, ⟨253, 7⟩)] 0) ⟨253, 7⟩) :=
  ⟨⟨by decide, dispatches_first _ _⟩, by decide, dispatches_first _ _⟩
theorem witness_UndefinedDispatchRaisesItsFault :
    (Active (playing 3 [] 600) ∧ SequencerEnabled (playing 3 [] 600) ∧ FrameInv (playing 3 [] 600).frame ∧
      Config.maxNotes ≤ (playing 3 [] 600).seq.pos.toNat) ∧
    (SequencerEnabled (playing 3 [] 599) ∧ (playing 3 [] 599).seq.pos.toNat < Config.maxNotes ∧
      (playing 3 [] 599).written (playing 3 [] 599).seq.pos.toNat = false) ∧
    (SequencerEnabled (playing 3 [(0, ⟨128, 1⟩)] 0) ∧
      (playing 3 [(0, ⟨128, 1⟩)] 0).sbRead 0 = some ⟨128, 1⟩ ∧ 128 ≤ (128 : Byte).toNat) ∧
    (FaultsAtDispatch (playing 3 [] 600) ∧ (playing 3 [] 600).currentInput.rx = none ∧
      (playing 3 [] 600).timer.en = false) ∧
    FaultsAtDispatch (playing 3 [] 599) ∧ FaultsAtDispatch (playing 3 [(0, ⟨252, 1⟩)] 0) :=
  ⟨⟨rfl, ⟨rfl, rfl, rfl⟩, ⟨rfl, rfl, rfl, rfl, rfl⟩, by decide⟩, ⟨⟨rfl, rfl, rfl⟩, by decide, rfl⟩,
    ⟨⟨rfl, rfl, rfl⟩, rfl, by decide⟩, ⟨.inl (by decide), rfl, rfl⟩, .inr (.inl rfl),
    .inr (.inr ⟨⟨252, 1⟩, rfl, by decide, by decide⟩)⟩
theorem witness_FaultsLastUntilReset :
    let s := on ((playing 3 [] 0).raiseFault .unwrittenEntry) 0x30
    Active s ∧ (∃ t, step s = .next t) ∧ s.faults.has .unwrittenEntry = true ∧ s.seq.state = .fault :=
  ⟨rfl, ⟨_, rfl⟩, rfl, rfl⟩
/-- `sounding` with a timer of one's own. -/
def timing (t : ToneTimer) : State := { sounding 3 5 with timer := t }
theorem witness_ToneTimerCounts :
    (∀ t, Active (timing t) ∧ (∃ u, step (timing t) = .next u) ∧ ¬ SequencerEnabled (timing t)) ∧
    ((timing ⟨true, 7, 0xFFFF, Config.timerDiv - 1, false⟩).timer.en = true ∧
      (timing ⟨true, 7, 0xFFFF, Config.timerDiv - 1, false⟩).timer.presc = Config.timerDiv - 1 ∧
      (timing ⟨true, 7, 0xFFFF, Config.timerDiv - 1, false⟩).timer.count = 0xFFFF) ∧
    ((timing ⟨true, 7, 7, Config.timerDiv - 1, false⟩).timer.presc = Config.timerDiv - 1 ∧
      (timing ⟨true, 7, 7, Config.timerDiv - 1, false⟩).timer.count ≠ 0xFFFF) ∧
    (timing ⟨true, 7, 7, Config.timerDiv, false⟩).timer.presc ≠ Config.timerDiv - 1 ∧
    (timing ⟨false, 7, 7, 0, true⟩).timer.en = false :=
  ⟨fun t => ⟨rfl, ⟨_, rfl⟩, fun h => absurd h.1.symm idle_ne.1⟩, ⟨rfl, rfl, rfl⟩, ⟨rfl, by decide⟩,
    (Nat.sub_lt timerDiv_pos (by decide)).ne', rfl⟩
theorem witness_SilentBuzzerHoldsItsLevel :
    let s := playing 3 [(0, ⟨10, 5⟩)] 0
    Active s ∧ (∃ t, step s = .next t) ∧ s.timer.en = false ∧ Inv s ∧ s.seq.state ≠ .tone :=
  ⟨rfl, ⟨_, rfl⟩, rfl, inv_playing _ _ _ (by decide) rfl, by decide⟩

/-! ### Runs of the sequencer -/

/-- The first and the last cycle of a tone and of a rest, the cycle after it, and the entries of one cycle. -/
theorem witness_EntriesTakeTheirDuration :
    (∀ (p : Byte) (d : Half), Inv (playing 3 [(0, ⟨p, d⟩)] 0) ∧ Dispatches (playing 3 [(0, ⟨p, d⟩)] 0) ⟨p, d⟩) ∧
    (∀ n, NoReset (quiet n) ∧ NoBytes (quiet n)) ∧
    ((2 : Half) ≠ 0 ∧ 1 ≤ (quiet ((2 : Half).toNat * Config.unitCycles)).length ∧
      (quiet ((2 : Half).toNat * Config.unitCycles)).length ≤ (2 : Half).toNat * Config.unitCycles ∧
      (127 : Byte).toNat ≤ 127) ∧
    (quiet ((2 : Half).toNat * Config.unitCycles + 1)).length = (2 : Half).toNat * Config.unitCycles + 1 ∧
    (quiet 1).length = 1 := by
  refine ⟨fun p d => ⟨inv_playing _ _ _ (by decide) (by rfl), dispatches_first _ _⟩,
    fun n => ⟨quiet_noReset n, quiet_noBytes n⟩, ⟨by decide, ?_, ?_, by decide⟩, ?_, rfl⟩
  · have := unitCycles_pos
    rw [quiet, List.length_replicate]
    exact Nat.mul_pos (by decide) this
  · rw [quiet, List.length_replicate]
  · rw [quiet, List.length_replicate]
theorem witness_ToneTogglesTheBuzzer :
    let s := playing 3 [(0, ⟨127, 2⟩)] 0
    let m := (2 : Half).toNat * Config.unitCycles
    Inv s ∧ Dispatches s ⟨127, 2⟩ ∧ NoReset (quiet (m + 1)) ∧ (127 : Byte).toNat ≤ 127 ∧ (2 : Half) ≠ 0 ∧
      (quiet (m + 1)).length = m + 1 ∧ m ≤ (2 : Half).toNat * Config.unitCycles :=
  ⟨inv_playing _ _ _ (by decide) (by rfl), dispatches_first _ _, quiet_noReset _, by decide, by decide,
    by rw [quiet, List.length_replicate], Nat.le_refl _⟩
/-- A stop in the middle of a tone, and a unicast start in its last cycle. -/
theorem witness_CommandDoesNotCutTheEntry :
    (Inv (sounding 3 4) ∧ FrameBoundary (sounding 3 4) ∧ (sounding 3 4).seq.state = .tone ∧
      ObeyedCommand (sounding 3 4) 0x40 ∧ NoReset (rx 0x40 :: quiet 3) ∧ NoBytes (quiet 3) ∧
      (rx 0x40 :: quiet 3).length = (sounding 3 4).seq.wait) ∧
    (Inv (sounding 3 1) ∧ ObeyedCommand (sounding 3 1) 0x53 ∧ NoReset [rx 0x53] ∧ NoBytes [] ∧
      [rx 0x53].length = (sounding 3 1).seq.wait) :=
  ⟨⟨inv_sounding _ _ (by decide) (by decide), rfl, rfl, by decide, by decide, by decide, rfl⟩,
    inv_sounding _ _ (by decide) (by decide), by decide, by decide, by decide, rfl⟩
theorem witness_SyncAckResumesAfterTheBarrier :
    let s := playing 3 [(0, ⟨253, 9⟩)] 0
    Inv s ∧ FrameBoundary s ∧ Dispatches s ⟨253, 9⟩ ∧ quiet 3 ≠ [] ∧ NoReset (quiet 3 ++ [rx 0x8A]) ∧
      NoBytes (quiet 3) ∧ (rx 0x8A).rx = some 0x8A ∧ headerEvent 0x8A = 8 :=
  ⟨inv_playing _ _ _ (by decide) (by rfl), rfl, dispatches_first _ _, by decide, by decide, by decide, rfl, by decide⟩

/-! ### Node ID, transmitter, memory, reset, invariants -/

/-- A node with buttons pressed. -/
def pressed (s : State) (inc dec : Bool) : State := { s with inputs := [{ btnInc := inc, btnDec := dec }] }
theorem witness_ButtonsMoveTheNodeId :
    (∀ inc dec, Active (pressed (node 15) inc dec) ∧ ∃ t, step (pressed (node 15) inc dec) = .next t) ∧
    (pressed (node 15) true false).flags.isMusicPlaying = false ∧
    ((pressed (waiting 15 0) true false).flags.isMusicPlaying = true ∧
      ∃ t, step (pressed (waiting 15 0) true false) = .next t) ∧
    (pressed (node 15) true true).currentInput.btnInc = (pressed (node 15) true true).currentInput.btnDec :=
  ⟨fun _ _ => ⟨rfl, _, rfl⟩, rfl, ⟨rfl, _, rfl⟩, rfl⟩
/-- A node-ID change in an active cycle, and a reset cycle. -/
theorem witness_NodeIdAndStoreChangeTogether :
    (∃ t, step (pressed (node 15) true false) = .next t ∧ Active (pressed (node 15) true false) ∧
      t.nodeid ≠ (pressed (node 15) true false).nodeid) ∧
    (∃ t, step { node 3 with inputs := [{ rst := true }] } = .next t ∧
      ¬ Active { node 3 with inputs := [{ rst := true }] }) :=
  ⟨⟨_, rfl, rfl, by decide⟩, _, rfl, by decide⟩
theorem witness_TransmitterDrainsTheSlot :
    let s : State := { node 0 with flags := ⟨false, false, false, true, 0x20, false⟩, inputs := [{ txDone := true }] }
    Active s ∧ (∃ t, step s = .next t) ∧ ¬ SequencerEnabled s ∧ s.currentInput.rx = none :=
  ⟨rfl, ⟨_, rfl⟩, by decide, rfl⟩
/-- The coordinator dispatches a SYNC while 0x70 is pending and the UART is free. -/
def draining : State :=
  { playing 0 [(0, ⟨253, 0⟩)] 0 with flags := ⟨true, false, false, true, 0x70, false⟩ }
/-- The check byte of an addressed frame comes next. -/
def checked : State := on (inFrame (node 4) .check 3 3 5 true false) 5
/-- A response queued by a check byte, by an END, and by a SYNC in the cycle in which an equal byte drains. -/
theorem witness_OnlyThreeRulesQueueResponses :
    (Active checked ∧ checked.flags.sendResponse = false ∧
      ∃ t, step checked = .next t ∧ t.flags.sendResponse = true) ∧
    (Active (playing 0 [(0, ⟨254, 0⟩)] 0) ∧
      ∃ t, step (playing 0 [(0, ⟨254, 0⟩)] 0) = .next t ∧ t.flags.responseData ≠ 0) ∧
    (Active draining ∧ draining.flags.uartBusy = false ∧
      ∃ t, step draining = .next t ∧ t.flags.sendResponse = true ∧ t.flags.responseData = draining.flags.responseData) :=
  ⟨⟨rfl, rfl, _, rfl, rfl⟩, ⟨rfl, _, rfl, by decide⟩, rfl, rfl, _, rfl, rfl, rfl⟩
theorem witness_SongBufferWriteThenRead : 599 < Config.maxNotes ∧ Config.maxNotes ≤ 600 := by decide
theorem inv_lastTriple : Inv (on (inFrame (node 4) .payload 3 2 0 true false) 7) where
  frame := ⟨by decide, by decide⟩
  flags := fun h => absurd h Bool.false_ne_true
  sequencer := ⟨by decide, by rintro (h | h) <;> exact absurd h (by decide)⟩
  timer := ⟨⟨fun h => absurd h Bool.false_ne_true, fun h => absurd h (by decide)⟩, timerDiv_pos⟩
  fault := ⟨fun h => absurd h (by decide), fun h => absurd rfl h⟩
  songBuffer := rfl
theorem witness_OnlyAcceptedTriplesWriteTheBuffer :
    let s := on (inFrame (node 4) .payload 3 2 0 true false) 7
    Inv s ∧ Active s ∧ ∃ t, step s = .next t ∧ t.sbRead 0 ≠ s.sbRead 0 :=
  ⟨inv_lastTriple, rfl, _, rfl, by decide⟩
theorem witness_ResetCycleResetsEveryRegister :
    ({ playing 3 [(0, ⟨10, 5⟩)] 0 with inputs := [{ rst := true, nvBoot := 0x10 }] } : State).currentInput.rst = true :=
  rfl
theorem witness_EveryStepKeepsTheInvariant :
    Inv (sounding 3 1) ∧ ∃ t, step (sounding 3 1) = .next t := ⟨inv_sounding _ _ (by decide) (by decide), _, rfl⟩
theorem witness_TheBlockNeverStops : Inv (on (inFrame (node 4) .payload 3 2 0 true false) 7) := inv_lastTriple
/-- A song of one SYNC, loaded and started, blocks the node. -/
theorem witness_ReachableWaitingImpliesPlaying :
    ∃ s, Reachable s ∧ s.flags.isWaitingForSync = true :=
  ⟨_, ⟨3, cycles [0x13, 0x00, 0x03, 0xFD, 0x00, 0x00, 0xFD, 0x30] ++ quiet 1, rfl⟩, rfl⟩
theorem witness_ReachableStatesAreBounded : Reachable (node 3) := ⟨3, [], rfl⟩
theorem witness_QuiescenceLasts :
    Inv (State.resetWith 3 []) ∧ Quiescent (State.resetWith 3 []) ∧ ReceivesNothing (State.resetWith 3 []) ∧
      (State.resetWith 3 []).currentInput.txDone = false ∧ (State.resetWith 3 []).currentInput.btnInc = false ∧
      (State.resetWith 3 []).currentInput.btnDec = false :=
  ⟨⟨⟨rfl, rfl, rfl, rfl, rfl⟩, fun h => absurd h Bool.false_ne_true,
      ⟨by decide, by rintro (h | h) <;> exact absurd h (by decide)⟩,
      ⟨⟨fun h => absurd h Bool.false_ne_true, fun h => absurd h (by decide)⟩, timerDiv_pos⟩,
      ⟨fun h => absurd h (by decide), fun h => absurd rfl h⟩, rfl⟩, by decide, by decide, rfl, rfl, rfl⟩

end Sys2Proof.Tests
end

section
/-! The invariant of the machine (10_state.md): what one part of a cycle does to the playback registers and to the frame
receiver, that each part keeps `Inv`, and from that the statements about single cycles and reachable states. -/

/-! ## What the parts of a cycle do to faults, flags, cursor and frame -/

namespace Sys2Proof.Machine

@[simp] theorem faultSet_has_insert (fs : FaultSet) (f g : ModelFault) :
    (fs.insert f).has g = (decide (g = f) || fs.has g) := by
  cases f <;> cases g <;> simp [FaultSet.insert, FaultSet.has]

theorem faultSet_insert_ne_empty (fs : FaultSet) (f : ModelFault) : fs.insert f ≠ FaultSet.empty := by
  cases f <;> simp [FaultSet.insert, FaultSet.empty]

/-- A note's meaning leaves the faults, or it is the raise of one (R188). -/
theorem execNote_faults {w : BitVec 24} {s t : State} (h : exec (decodeNote w) s = .next t) :
    t.faults = s.faults ∨ ∃ f, t = s.raiseFault f := by
  rcases decodeNote_cases w with ⟨-, hw⟩ | ⟨-, -, hw⟩ | ⟨-, hw⟩ | ⟨-, hw⟩ | ⟨-, hw⟩ <;> rw [hw] at h <;> cases h
  · left; split <;> simp
  · exact .inr ⟨_, rfl⟩
  · left; simp
  · left; simp
  · left; split <;> simp

/-- The sequencer's part of a cycle leaves the faults, or it is the raise of one (R188 to R190). -/
theorem sequencerCycle_faults {s t : State} (h : sequencerCycle s = .next t) :
    t.faults = s.faults ∨ ∃ f, t = s.raiseFault f := by
  rcases sequencerCycle_cases s with ⟨-, -, hs⟩ | ⟨-, -, -, hs⟩ | ⟨-, -, -, hs⟩ | ⟨e, -, -, -, hs⟩ | ⟨-, hs⟩ |
    ⟨-, hs⟩ | ⟨-, hs⟩ <;> rw [hs] at h
  · cases h; exact .inl rfl
  · cases h; exact .inr ⟨_, rfl⟩
  · cases h; exact .inr ⟨_, rfl⟩
  · exact execNote_faults h
  · cases h; left; simp
  · cases h; left; simp
  · cases h; exact .inl rfl

/-- In `S_FAULT` the sequencer's part of a cycle does nothing (R244). -/
theorem sequencerCycle_of_fault {s : State} (h : s.seq.state = .fault) : sequencerCycle s = .next s := by
  unfold sequencerCycle
  rw [h]

/-- A header either takes the node out of the barrier or leaves both playback flags (R151 to R165). The two unicast
commands (arms 6 and 7) do the one or the other by their target. -/
theorem execHeader_flags {b : Byte} {s t : State} (h : exec (decodeHeader b) s = .next t) :
    t.flags.isWaitingForSync = false ∨
      (t.flags.isWaitingForSync = s.flags.isWaitingForSync ∧ t.flags.isMusicPlaying = s.flags.isMusicPlaying) := by
  unfold decodeHeader at h
  split at h <;> cases h
  case h_6 | h_7 => split <;> simp
  all_goals simp

/-- A header only records its nibbles in the frame registers, or opens a load frame (R121, R122): arm 2 is the load-start
header, arms 6 and 7 compare their target first. -/
theorem execHeader_frameRegisters {b : Byte} {s t : State} (h : exec (decodeHeader b) s = .next t) :
    (∃ e n, t.frame = { s.frame with event := e, param := n }) ∨
      (∃ n, t.frame = { s.frame with
        state := .lenHi, event := 1, param := n, len := 0, count := 0, csum := 0, matched := s.addressed n,
        oversize := false }) := by
  unfold decodeHeader at h
  split at h <;> cases h
  case h_2 => exact .inr ⟨_, rfl⟩
  case h_6 | h_7 => left; split <;> exact ⟨_, _, rfl⟩
  all_goals exact .inl ⟨_, _, rfl⟩

/-- What the receive path can do to playback: the cursor stays or is reset, and the flags stay or the node is taken out of
the barrier (R58). -/
theorem receiverCycle_playback {i : CycleInput} {s t : State} (h : receiverCycle i s = .next t) :
    (t.seq.pos = s.seq.pos ∨ t.seq.pos = 0) ∧ (t.flags.isWaitingForSync = false ∨
      (t.flags.isWaitingForSync = s.flags.isWaitingForSync ∧ t.flags.isMusicPlaying = s.flags.isMusicPlaying)) := by
  unfold receiverCycle at h
  split at h
  · cases h; simp
  · rename_i b _
    rcases receiveByte_cases b s with ⟨-, hb⟩ | ⟨-, hb⟩ | ⟨-, hb⟩ | ⟨-, hb⟩ | ⟨-, hb⟩ <;> rw [hb] at h
    · obtain ⟨u, hu, -, -, -, -, -, -, -, -, -, -, hpos⟩ := execHeader_frame b s
      rw [h] at hu; cases hu
      exact ⟨hpos, execHeader_flags h⟩
    · cases h; simp
    · cases h; simp
    · obtain ⟨hflags, hseq, -⟩ := payloadByte_frame h
      simp [hflags, hseq]
    · cases h
      have := judgeFrame_frame b s
      simp [checkByte, this]

/-- An accepted payload byte moves none of the registers that `FrameInv` speaks of, and whatever it writes to the Song
Buffer is one entry below `MAX_NOTES` (R82, R126). -/
theorem acceptByte_frame {b : Byte} {s t : State} (h : acceptByte b s = .next t) :
    t.frame.state = s.frame.state ∧ t.frame.len = s.frame.len ∧ t.frame.count = s.frame.count ∧
      t.frame.oversize = s.frame.oversize ∧
      (t.sb = s.sb ∨ ∃ a e, a < Config.maxNotes ∧ t.sb = SongBuffer.write s.sb a e) := by
  rcases acceptByte_cases b s with ⟨-, ha⟩ | ⟨-, ha⟩ | ⟨-, ha⟩ <;> rw [ha] at h
  · cases h; simp
  · cases h; simp
  · obtain ⟨hlt, rfl⟩ := sbWrite_eq_next.mp h
    exact ⟨rfl, rfl, rfl, rfl, .inr ⟨_, _, hlt, rfl⟩⟩

/-- A payload byte's next state: the byte is counted, after an accepted byte's share or none (R126). -/
theorem payloadByte_eq_countByte {b : Byte} {s t : State} (h : payloadByte b s = .next t) :
    ∃ u, (u = s ∨ acceptByte b s = .next u) ∧ t = countByte u := by
  unfold payloadByte at h
  split at h
  · obtain ⟨u, hu, ht⟩ := andThen_eq_next.mp h
    cases ht
    exact ⟨u, .inr hu, rfl⟩
  · cases h
    exact ⟨s, .inl rfl, rfl⟩

theorem toNat_pos_of_ne_zero {v : Half} (h : v ≠ 0) : 0 < v.toNat := by bv_omega

theorem durationCycles_pos {d : Half} (h : d ≠ 0) : 1 ≤ durationCycles d :=
  Nat.mul_pos (toNat_pos_of_ne_zero h) (Nat.succ_pos _)

theorem durationCycles_lt (d : Half) : durationCycles d < 65536 * Config.unitCycles :=
  Nat.mul_lt_mul_of_pos_right d.isLt (Nat.succ_pos _)

/-- A dispatch finds an entry only at a slot of the Song Buffer that is written (R181). -/
theorem fetchNote_entry {s : State} {e : NoteEntry} (h : s.fetchNote = .entry e) :
    s.seq.pos.toNat < Config.maxNotes ∧ s.sbRead s.seq.pos.toNat = some e := by
  rcases fetchNote_cases s with ⟨hf, -⟩ | ⟨hf, -⟩ | ⟨e', hf, hlt, hread⟩ <;> rw [h] at hf
  · cases hf
  · cases hf
  · cases hf; exact ⟨hlt, hread⟩

/-- The cursor does not wrap where it stands at a slot of the Song Buffer. -/
theorem toNat_succ_of_lt_maxNotes {p : Half} (h : p.toNat < Config.maxNotes) : (p + 1).toNat = p.toNat + 1 := by
  have : p.toNat < 600 := h
  bv_omega

end Sys2Proof.Machine

/-! ## The frame receiver keeps its invariant -/

namespace Sys2Proof.Safety

open Sys2Proof.Machine

theorem frameInv_count_le_len {f : InboundFrame} (h : FrameInv f) : f.count.toNat ≤ f.len.toNat := by
  unfold FrameInv at h
  split at h
  · obtain ⟨hlen, hcount, -⟩ := h; simp [hlen, hcount]
  · obtain ⟨hlen, hcount, -⟩ := h; simp [hlen, hcount]
  · obtain ⟨-, hcount, -⟩ := h; simp [hcount]
  · exact h.1.le
  · rw [h.1]

theorem frameInv_execHeader {b : Byte} {s t : State} (h : FrameInv s.frame) (ht : exec (decodeHeader b) s = .next t) :
    FrameInv t.frame := by
  rcases execHeader_frameRegisters ht with ⟨e, n, hf⟩ | ⟨n, hf⟩ <;> rw [hf]
  · exact h
  · exact ⟨rfl, rfl, rfl, rfl⟩

theorem frameInv_lengthHigh {b : Byte} {s : State} (h : FrameInv s.frame) (hs : s.frame.state = .lenHi) :
    FrameInv (lengthHigh b s).frame := by
  simp only [FrameInv, hs] at h
  obtain ⟨hlen, hcount, hcsum, hover⟩ := h
  simp only [FrameInv, lengthHigh_frame, lowByte_bigEndian]
  exact ⟨by rw [hlen]; rfl, hcount, hcsum, hover⟩

theorem frameInv_lengthLow {b : Byte} {s : State} (h : FrameInv s.frame) (hs : s.frame.state = .lenLo) :
    FrameInv (lengthLow b s).frame := by
  simp only [FrameInv, hs] at h
  obtain ⟨-, hcount, -, -⟩ := h
  by_cases hL : declaredLength b s = 0
  · simp [FrameInv, hL, hcount]
  · simp only [FrameInv, lengthLow_frame, if_neg hL, hcount]
    exact ⟨toNat_pos_of_ne_zero hL, trivial⟩

/-- Counting a payload byte before the last stays below the length; the last one ends the payload (R126). -/
theorem frameInv_countByte {s : State} (h : FrameInv s.frame) (hs : s.frame.state = .payload) :
    FrameInv (countByte s).frame := by
  simp only [FrameInv, hs] at h
  obtain ⟨hlt, hover⟩ := h
  by_cases hlast : s.frame.count + 1 = s.frame.len
  · simp only [FrameInv, countByte_frame, if_pos hlast]
    exact ⟨hlast, hover⟩
  · simp only [FrameInv, countByte_frame, if_neg hlast, hs]
    exact ⟨by bv_omega, hover⟩

theorem frameInv_acceptByte {b : Byte} {s t : State} (h : FrameInv s.frame) (hs : s.frame.state = .payload)
    (ht : acceptByte b s = .next t) : FrameInv t.frame := by
  obtain ⟨hstate, hlen, hcount, hover, -⟩ := acceptByte_frame ht
  simp only [FrameInv, hs] at h
  simpa only [FrameInv, hstate, hs, hlen, hcount, hover] using h

theorem frameInv_payloadByte {b : Byte} {s t : State} (h : FrameInv s.frame) (hs : s.frame.state = .payload)
    (ht : payloadByte b s = .next t) : FrameInv t.frame := by
  obtain ⟨u, rfl | hu, rfl⟩ := payloadByte_eq_countByte ht
  · exact frameInv_countByte h hs
  · exact frameInv_countByte (frameInv_acceptByte h hs hu) ((acceptByte_frame hu).1.trans hs)

theorem frameInv_receiverCycle {i : CycleInput} {s t : State} (h : FrameInv s.frame)
    (ht : receiverCycle i s = .next t) : FrameInv t.frame := by
  unfold receiverCycle at ht
  split at ht
  · cases ht; exact h
  · rename_i b _
    rcases receiveByte_cases b s with ⟨-, hb⟩ | ⟨hs, hb⟩ | ⟨hs, hb⟩ | ⟨hs, hb⟩ | ⟨-, hb⟩ <;> rw [hb] at ht
    · exact frameInv_execHeader h ht
    · cases ht; exact frameInv_lengthHigh h hs
    · cases ht; exact frameInv_lengthLow h hs
    · exact frameInv_payloadByte h hs ht
    · cases ht; exact ⟨rfl, rfl, rfl, rfl, rfl⟩

theorem songBuffer_wf_payloadByte {b : Byte} {s t : State} (h : SongBuffer.wf s.sb = true)
    (ht : payloadByte b s = .next t) : SongBuffer.wf t.sb = true := by
  obtain ⟨u, rfl | hu, rfl⟩ := payloadByte_eq_countByte ht
  · exact h
  · obtain ⟨-, -, -, -, hsb | ⟨a, e, ha, hsb⟩⟩ := acceptByte_frame hu <;> rw [countByte_sb, hsb]
    · exact h
    · exact songBuffer_wf_write e ha h

theorem songBuffer_wf_receiverCycle {i : CycleInput} {s t : State} (h : SongBuffer.wf s.sb = true)
    (ht : receiverCycle i s = .next t) : SongBuffer.wf t.sb = true := by
  unfold receiverCycle at ht
  split at ht
  · cases ht; exact h
  · rename_i b _
    rcases receiveByte_cases b s with ⟨-, hb⟩ | ⟨-, hb⟩ | ⟨-, hb⟩ | ⟨-, hb⟩ | ⟨-, hb⟩ <;> rw [hb] at ht
    · obtain ⟨u, hu, -, -, -, -, hsb, -⟩ := execHeader_frame b s
      rw [ht] at hu; cases hu
      rwa [hsb]
    · cases ht; exact h
    · cases ht; exact h
    · exact songBuffer_wf_payloadByte h ht
    · cases ht
      obtain ⟨-, -, -, -, hsb, -⟩ := judgeFrame_frame b s
      rwa [checkByte, completeFrame_sb, hsb]

/-! ## Each part of a cycle keeps the invariant -/

theorem Inv.timer_off {s : State} (h : Inv s) (hs : s.seq.state ≠ .tone) : s.timer.en = false :=
  Bool.eq_false_of_not_eq_true fun hen => hs (h.timer.1.mp hen)

theorem Inv.faultless {s : State} (h : Inv s) (hs : s.seq.state ≠ .fault) : Faultless s :=
  not_not.mp fun hf => hs (h.fault.mpr hf)

/-- The invariant does not speak of the schedule. -/
theorem Inv.after_withInputs {s : State} (h : Inv s) (ins : List CycleInput) : Inv (withInputs s ins) :=
  ⟨h.frame, h.flags, h.sequencer, h.timer, h.fault, h.songBuffer⟩

theorem Inv.after_takeInput {s : State} (h : Inv s) : Inv s.takeInput := h.after_withInputs s.inputs.tail

theorem Inv.after_endCycle {s : State} (h : Inv s) (i : CycleInput) (pre : State) : Inv (endCycle i pre s) :=
  ⟨h.frame, h.flags, h.sequencer, h.timer, h.fault, h.songBuffer⟩

theorem Inv.after_beginCycle {s : State} (h : Inv s) (i : CycleInput) : Inv (beginCycle i s) where
  frame := by simpa using h.frame
  flags := by simpa [FlagInv] using h.flags
  sequencer := by simpa [SequencerInv] using h.sequencer
  timer := by simpa [TimerInv] using ⟨h.timer.1, timerTick_presc_lt h.timer.2⟩
  fault := by simpa [FaultInv] using h.fault
  songBuffer := by simpa using h.songBuffer

theorem Inv.after_raiseFault {s : State} (h : Inv s) (hs : s.seq.state = .idle) (f : ModelFault) :
    Inv (s.raiseFault f) where
  frame := h.frame
  flags := h.flags
  sequencer := ⟨h.sequencer.1, by simp⟩
  timer := ⟨by simp [h.timer_off (by simp [hs])], h.timer.2⟩
  fault := by simp [FaultInv, faultSet_insert_ne_empty]
  songBuffer := h.songBuffer

/-- The cursor may go to any slot, or just past the last one, while the sequencer stands between entries. -/
theorem Inv.after_setPos {s : State} (h : Inv s) (hs : s.seq.state = .idle) {p : Half} (hp : p.toNat ≤ Config.maxNotes) :
    Inv (s.setPos p) where
  frame := h.frame
  flags := h.flags
  sequencer := ⟨hp, by simp [hs]⟩
  timer := h.timer
  fault := h.fault
  songBuffer := h.songBuffer

theorem Inv.after_advance {s : State} (h : Inv s) (hs : s.seq.state = .idle) (hp : s.seq.pos.toNat < Config.maxNotes) :
    Inv s.advance :=
  h.after_setPos hs (by rw [toNat_succ_of_lt_maxNotes hp]; exact hp)

theorem Inv.after_notify {s : State} (h : Inv s) (v : Byte) : Inv (s.notify v) := by
  rcases notify_cases s v with ⟨-, hn⟩ | ⟨-, hn⟩ <;> rw [hn]
  · exact ⟨h.frame, h.flags, h.sequencer, h.timer, h.fault, h.songBuffer⟩
  · exact h

/-- Entering the barrier keeps R49 on a playing node. -/
theorem Inv.after_setWaiting {s : State} (h : Inv s) (hplay : s.flags.isMusicPlaying = true) : Inv (s.setWaiting true) :=
  ⟨h.frame, fun _ => hplay, h.sequencer, h.timer, h.fault, h.songBuffer⟩

/-- The end of a song keeps R49 on a node that is not in the barrier. -/
theorem Inv.after_clearPlaying {s : State} (h : Inv s) (hwait : s.flags.isWaitingForSync = false) :
    Inv s.clearPlaying where
  frame := h.frame
  flags := by simp [FlagInv, hwait]
  sequencer := h.sequencer
  timer := h.timer
  fault := h.fault
  songBuffer := h.songBuffer

/-- An entry of some duration begins, with whatever timer runs exactly for a tone (R182, R184). -/
theorem Inv.beginEntry {s : State} {d : Half} {q : SeqState} {tm : ToneTimer} (h : Inv s)
    (hp : s.seq.pos.toNat < Config.maxNotes) (hs : s.seq.state = .idle) (hd : d ≠ 0) (hq : q = .tone ∨ q = .rest)
    (htm : (tm.en = true ↔ q = .tone) ∧ tm.presc < Config.timerDiv) :
    Inv { s with timer := tm, seq := { s.seq with wait := durationCycles d, state := q } } where
  frame := h.frame
  flags := h.flags
  sequencer := ⟨h.sequencer.1, fun _ => ⟨hp, durationCycles_pos hd, durationCycles_lt d⟩⟩
  timer := htm
  fault := by
    have hfault : Faultless s := h.faultless (by simp [hs])
    rcases hq with rfl | rfl <;> simpa [FaultInv] using hfault
  songBuffer := h.songBuffer

theorem Inv.after_execTone {s t : State} {p : Pitch} {d : Half} (h : Inv s) (hs : s.seq.state = .idle)
    (hp : s.seq.pos.toNat < Config.maxNotes) (ht : execTone p d s = .next t) : Inv t := by
  unfold execTone at ht
  split at ht <;> cases ht
  · exact h.after_advance hs hp
  · rename_i hd
    exact h.beginEntry hp hs hd (.inl rfl) ⟨by simp, Nat.succ_pos _⟩

theorem Inv.after_execRest {s t : State} {d : Half} (h : Inv s) (hs : s.seq.state = .idle)
    (hp : s.seq.pos.toNat < Config.maxNotes) (ht : execRest d s = .next t) : Inv t := by
  unfold execRest at ht
  split at ht <;> cases ht
  · exact h.after_advance hs hp
  · rename_i hd
    exact h.beginEntry hp hs hd (.inr rfl) ⟨by simp [h.timer_off (by simp [hs])], h.timer.2⟩

/-- The dispatch of any written entry, by its five kinds. -/
theorem Inv.after_execNote {s t : State} {w : BitVec 24} (h : Inv s) (hs : s.seq.state = .idle)
    (hen : s.playbackEnabled = true) (hp : s.seq.pos.toNat < Config.maxNotes)
    (ht : exec (decodeNote w) s = .next t) : Inv t := by
  obtain ⟨hplay, hwait⟩ : s.flags.isMusicPlaying = true ∧ s.flags.isWaitingForSync = false := by
    simpa [State.playbackEnabled] using hen
  rcases decodeNote_cases w with ⟨-, hw⟩ | ⟨-, -, hw⟩ | ⟨-, hw⟩ | ⟨-, hw⟩ | ⟨-, hw⟩ <;> rw [hw] at ht
  · exact h.after_execTone hs hp ht
  · cases ht
    exact h.after_raiseFault hs _
  · cases ht
    exact ((h.after_notify _).after_setWaiting (by simp [hplay])).after_advance (by simp [hs]) (by simpa using hp)
  · cases ht
    exact ((h.after_setPos hs (p := 0) (Nat.zero_le _)).after_clearPlaying hwait).after_notify _
  · exact h.after_execRest hs hp ht

/-- An entry in progress that has cycles left counts one down (R183, R185). -/
theorem Inv.countDown {s : State} (h : Inv s) (hwait : 1 < s.seq.wait) :
    Inv { s with seq := { s.seq with wait := s.seq.wait - 1 } } where
  frame := h.frame
  flags := h.flags
  sequencer := by
    refine ⟨h.sequencer.1, fun hs => ?_⟩
    obtain ⟨hp, -, hlt⟩ := h.sequencer.2 hs
    exact ⟨hp, Nat.le_sub_one_of_lt hwait, (Nat.sub_le _ _).trans_lt hlt⟩
  timer := h.timer
  fault := h.fault
  songBuffer := h.songBuffer

/-- The last cycle of an entry in progress leaves the timer off and moves the cursor on (R183, R185). -/
theorem Inv.endEntry {s : State} {tm : ToneTimer} (h : Inv s) (hs : s.seq.state = .tone ∨ s.seq.state = .rest)
    (htm : tm.en = false ∧ tm.presc < Config.timerDiv) :
    Inv { s with timer := tm, seq := { s.seq with pos := s.seq.pos + 1, state := .idle } } where
  frame := h.frame
  flags := h.flags
  sequencer := by
    obtain ⟨hp, -⟩ := h.sequencer.2 hs
    exact ⟨by rw [toNat_succ_of_lt_maxNotes hp]; exact hp, by simp⟩
  timer := ⟨by simp [htm.1], htm.2⟩
  fault := by
    have hfault : Faultless s := h.faultless (by rcases hs with hs | hs <;> simp [hs])
    simpa [FaultInv] using hfault
  songBuffer := h.songBuffer

theorem Inv.after_toneCycle {s : State} (h : Inv s) (hs : s.seq.state = .tone) : Inv (toneCycle s) := by
  unfold toneCycle
  split
  · exact h.countDown ‹_›
  · exact h.endEntry (.inl hs) ⟨rfl, h.timer.2⟩

theorem Inv.after_restCycle {s : State} (h : Inv s) (hs : s.seq.state = .rest) : Inv (restCycle s) := by
  unfold restCycle
  split
  · exact h.countDown ‹_›
  · exact h.endEntry (.inr hs) ⟨h.timer_off (by simp [hs]), h.timer.2⟩

theorem Inv.after_sequencerCycle {s t : State} (h : Inv s) (ht : sequencerCycle s = .next t) : Inv t := by
  rcases sequencerCycle_cases s with ⟨-, -, hc⟩ | ⟨hs, -, -, hc⟩ | ⟨hs, -, -, hc⟩ | ⟨e, hs, hen, hfetch, hc⟩ |
    ⟨hs, hc⟩ | ⟨hs, hc⟩ | ⟨-, hc⟩ <;> rw [hc] at ht
  · cases ht; exact h
  · cases ht; exact h.after_raiseFault hs _
  · cases ht; exact h.after_raiseFault hs _
  · exact h.after_execNote hs hen (fetchNote_entry hfetch).1 ht
  · cases ht; exact h.after_toneCycle hs
  · cases ht; exact h.after_restCycle hs
  · cases ht; exact h

theorem Inv.after_receiverCycle {s t : State} {i : CycleInput} (h : Inv s) (ht : receiverCycle i s = .next t) : Inv t := by
  obtain ⟨hstate, hwait, htimer, -, hfaults, -, -⟩ := receiverCycle_frame ht
  obtain ⟨hpos, hflags⟩ := receiverCycle_playback ht
  exact {
    frame := frameInv_receiverCycle h.frame ht
    flags := by
      rcases hflags with hw | ⟨hw, hplay⟩
      · simp [FlagInv, hw]
      · rw [FlagInv, hw, hplay]; exact h.flags
    sequencer := by
      rw [SequencerInv, hstate, hwait]
      rcases hpos with hp | hp <;> rw [hp]
      · exact h.sequencer
      · exact ⟨Nat.zero_le _, fun hs => ⟨by decide, (h.sequencer.2 hs).2⟩⟩
    timer := by rw [TimerInv, htimer, hstate]; exact h.timer
    fault := by rw [FaultInv, Faultless, hstate, hfaults]; exact h.fault
    songBuffer := songBuffer_wf_receiverCycle h.songBuffer ht }

theorem inv_resetWith (stored : Byte) (ins : List CycleInput) : Inv (State.resetWith stored ins) where
  frame := ⟨rfl, rfl, rfl, rfl, rfl⟩
  flags := by simp [FlagInv, State.resetWith]
  sequencer := ⟨Nat.zero_le _, by simp [State.resetWith]⟩
  timer := ⟨by simp [State.resetWith], Nat.succ_pos _⟩
  fault := by simp [FaultInv, State.resetWith, FaultSet.empty]
  songBuffer := rfl

theorem Inv.after_step {s t : State} (h : Inv s) (ht : step s = .next t) : Inv t := by
  rcases step_cases s with ⟨-, hc⟩ | ⟨-, hc⟩ <;> rw [hc] at ht
  · cases ht
    exact inv_resetWith _ _
  · obtain ⟨s₁, s₂, h₁, h₂, rfl⟩ := activeCycle_eq_next.mp ht
    exact (((h.after_takeInput.after_beginCycle _).after_sequencerCycle h₁).after_receiverCycle h₂).after_endCycle _ _

theorem Inv.after_runsTo {s t : State} {ins : List CycleInput} (h : Inv s) (ht : RunsTo s ins t) : Inv t := by
  induction ins generalizing s with
  | nil =>
    rw [runsTo_nil.mp ht]
    exact h.after_withInputs _
  | cons i ins ih =>
    obtain ⟨u, hu, hrest⟩ := runsTo_cons.mp ht
    exact ih ((h.after_withInputs _).after_step hu) hrest

theorem inv_of_reachable {s : State} (h : Reachable s) : Inv s := by
  obtain ⟨stored, ins, hrun⟩ := h
  exact (inv_resetWith stored []).after_runsTo hrun

/-! ## Faults are sticky -/

/-- No active cycle takes a fault back (R47). -/
theorem step_keeps_fault {s t : State} {f : ModelFault} (ha : Active s) (ht : step s = .next t)
    (hf : s.faults.has f = true) : t.faults.has f = true := by
  obtain ⟨s₁, s₂, h₁, h₂, rfl⟩ := (step_active_eq_next ha).mp ht
  obtain ⟨-, -, -, -, hfaults, -, -⟩ := receiverCycle_frame h₂
  rw [endCycle_faults, hfaults]
  rcases sequencerCycle_faults h₁ with hs | ⟨g, rfl⟩
  · simpa [hs] using hf
  · simp [hf]

/-- Only reset leaves `S_FAULT` (R244). -/
theorem step_of_seqFault {s t : State} (ha : Active s) (ht : step s = .next t) (hs : s.seq.state = .fault) :
    t.seq.state = .fault ∧ t.faults = s.faults ∧ t.seq.wait = s.seq.wait := by
  obtain ⟨s₁, s₂, h₁, h₂, rfl⟩ := (step_active_eq_next ha).mp ht
  rw [sequencerCycle_of_fault (by simpa using hs)] at h₁
  cases h₁
  obtain ⟨hstate, hwait, -, -, hfaults, -, -⟩ := receiverCycle_frame h₂
  simp [hstate, hwait, hfaults, hs]

end Sys2Proof.Safety

/-! ## The statements -/

namespace Sys2Proof.Claims

open Sys2Proof.Machine Sys2Proof.Safety

/-- Settles O51: each part of a cycle keeps the invariant. -/
theorem everyStepKeepsTheInvariant : Obligations.EveryStepKeepsTheInvariant :=
  fun _ _ h ht => h.after_step ht

/-- Settles O34: the receive path leaves the faults and the sequencer's state, and the sequencer's part only adds faults
and does nothing in `S_FAULT`. -/
theorem faultsLastUntilReset : Obligations.FaultsLastUntilReset :=
  fun _ _ ha ht => ⟨fun _ => step_keeps_fault ha ht, step_of_seqFault ha ht⟩

/-- Settles O53: R49 is the flag clause of the invariant. -/
theorem reachableWaitingImpliesPlaying : Obligations.ReachableWaitingImpliesPlaying :=
  fun _ h => (inv_of_reachable h).flags

/-- Settles O54, clause by clause from the invariant. -/
theorem reachableStatesAreBounded : Obligations.ReachableStatesAreBounded := by
  intro s h
  obtain ⟨hframe, -, ⟨hpos, -⟩, ⟨hen, hpresc⟩, -, hsb⟩ := inv_of_reachable h
  exact ⟨frameInv_count_le_len hframe, hpos, hen, hpresc, hsb⟩

end Sys2Proof.Claims
end

section
/-! The Song Buffer (20_memory.md): what an entry reads after `SBWrite`, and which byte can write one. -/

namespace Sys2Proof.Machine

/-! ## `SBWrite`, then `SBRead` -/

theorem songBuffer_read_write (m : SongBuffer) (i a : Nat) (e : NoteEntry) :
    SongBuffer.read (SongBuffer.write m i e) a = if a = i then some e else SongBuffer.read m a := by
  split
  · subst a; exact songBuffer_read_write_same m i e
  · exact songBuffer_read_write_other m e ‹_›

theorem sbWrite_of_lt {s : State} {i : Nat} {e : NoteEntry} (h : i < Config.maxNotes) :
    s.sbWrite i e = .next { s with sb := SongBuffer.write s.sb i e } :=
  sbWrite_eq_next.mpr ⟨h, rfl⟩

theorem sbWrite_of_maxNotes_le {s : State} {i : Nat} {e : NoteEntry} (h : Config.maxNotes ≤ i) :
    s.sbWrite i e = .fault .songBufferIndex :=
  if_neg h.not_gt

/-! ## Which byte writes an entry -/

/-- `m` is the Song Buffer of `s` with one entry written, in the slot of the byte that the receiver of `s` waits for,
which is the third byte of a triple of an accepted frame (R82). -/
def WritesTriple (s : State) (m : SongBuffer) : Prop :=
  s.frame.state = .payload ∧ s.accept = true ∧ triplePlace s.frame.count = 2 ∧
    ∃ e, m = SongBuffer.write s.sb (tripleSlot s.frame.count) e

/-- `WritesTriple` speaks of the frame and the Song Buffer only. -/
theorem WritesTriple.congr {s s' : State} {m : SongBuffer} (h : WritesTriple s m) (hf : s.frame = s'.frame)
    (hb : s.sb = s'.sb) : WritesTriple s' m := by
  simpa only [WritesTriple, State.accept, hf, hb] using h

theorem WritesTriple.slot_of_read_ne {s : State} {m : SongBuffer} {a : Nat} (h : WritesTriple s m)
    (ha : SongBuffer.read m a ≠ s.sbRead a) : a = tripleSlot s.frame.count := by
  obtain ⟨-, -, -, e, rfl⟩ := h
  by_contra hne
  exact ha (songBuffer_read_write_other s.sb e hne)

theorem acceptByte_sb {b : Byte} {s t : State} (h : acceptByte b s = .next t) :
    t.sb = s.sb ∨ (triplePlace s.frame.count = 2 ∧ ∃ e, t.sb = SongBuffer.write s.sb (tripleSlot s.frame.count) e) := by
  rcases acceptByte_cases b s with ⟨-, ha⟩ | ⟨-, ha⟩ | ⟨hplace, ha⟩ <;> rw [ha] at h
  · cases h; exact .inl rfl
  · cases h; exact .inl rfl
  · obtain ⟨-, rfl⟩ := sbWrite_eq_next.mp h
    exact .inr ⟨hplace, _, rfl⟩

theorem payloadByte_sb {b : Byte} {s t : State} (hs : s.frame.state = .payload) (h : payloadByte b s = .next t) :
    t.sb = s.sb ∨ WritesTriple s t.sb := by
  cases hacc : s.accept with
  | false =>
    rw [payloadByte_discarded b hacc] at h
    cases h; exact .inl rfl
  | true =>
    rw [payloadByte, if_pos hacc] at h
    obtain ⟨u, hu, ht⟩ := andThen_eq_next.mp h
    cases ht
    exact (acceptByte_sb hu).imp_right fun ⟨hplace, hwrite⟩ => ⟨hs, hacc, hplace, hwrite⟩

/-- Of the receiver's five states only `PAYLOAD` writes the Song Buffer (R62, R82). -/
theorem receiveByte_sb {b : Byte} {s t : State} (h : receiveByte b s = .next t) :
    t.sb = s.sb ∨ WritesTriple s t.sb := by
  rcases receiveByte_cases b s with ⟨-, hb⟩ | ⟨-, hb⟩ | ⟨-, hb⟩ | ⟨hs, hb⟩ | ⟨-, hb⟩ <;> rw [hb] at h
  · obtain ⟨u, hu, -, -, -, -, hsb, -⟩ := execHeader_frame b s
    rw [h] at hu; cases hu
    exact .inl hsb
  · cases h; exact .inl rfl
  · cases h; exact .inl rfl
  · exact payloadByte_sb hs h
  · cases h
    obtain ⟨-, -, -, -, hsb, -⟩ := judgeFrame_frame b s
    exact .inl hsb

theorem receiverCycle_sb {i : CycleInput} {s t : State} (h : receiverCycle i s = .next t) :
    t.sb = s.sb ∨ (i.rx ≠ none ∧ WritesTriple s t.sb) := by
  unfold receiverCycle at h
  split at h
  · cases h; exact .inl rfl
  · rename_i b hrx
    exact (receiveByte_sb h).imp_right fun hw => ⟨by simp [hrx], hw⟩

end Sys2Proof.Machine

namespace Sys2Proof.Safety

open Sys2Proof.Machine

/-- The sequencer's part leaves the frame and the Song Buffer, so what an active cycle writes to the buffer is what its
byte writes in the frame as it stood before the edge (R197). -/
theorem step_active_sb {s t : State} (ha : Active s) (ht : step s = .next t) :
    t.sb = s.sb ∨ (s.currentInput.rx ≠ none ∧ WritesTriple s t.sb) := by
  obtain ⟨s₁, s₂, h₁, h₂, rfl⟩ := (step_active_eq_next ha).mp ht
  obtain ⟨u, hu, hframe, -, hsb, -⟩ := sequencerCycle_frame (beginCycle s.currentInput s.takeInput)
  rw [h₁] at hu; cases hu
  simp only [beginCycle_frame, takeInput_frame, beginCycle_sb, takeInput_sb] at hframe hsb
  rw [endCycle_sb, ← hsb]
  exact (receiverCycle_sb h₂).imp_right fun ⟨hrx, hw⟩ => ⟨hrx, hw.congr hframe hsb⟩

/-- In `PAYLOAD` the count is below the length, so a third byte that is counted completes its triple (R82). -/
theorem frameInv_tripleSlot_lt {f : InboundFrame} (h : FrameInv f) (hs : f.state = .payload)
    (hplace : triplePlace f.count = 2) : tripleSlot f.count < f.len.toNat / 3 := by
  simp only [FrameInv, hs] at h
  obtain ⟨hlt, -⟩ := h
  unfold triplePlace at hplace
  unfold tripleSlot
  omega

/-- In `PAYLOAD` a frame that is not marked oversize fits the Song Buffer (R124). -/
theorem frameInv_len_le_of_not_oversize {f : InboundFrame} (h : FrameInv f) (hs : f.state = .payload)
    (hover : f.oversize = false) : f.len.toNat / 3 ≤ Config.maxNotes := by
  simp only [FrameInv, hs] at h
  obtain ⟨-, hlen⟩ := h
  rw [hover] at hlen
  exact not_lt.mp (of_decide_eq_false hlen.symm)

end Sys2Proof.Safety

namespace Sys2Proof.Claims

open Sys2Proof.Machine Sys2Proof.Safety

/-- Settles O47: a cycle that changes an entry wrote a triple, and the invariant of the frame bounds the triple's slot. -/
theorem onlyAcceptedTriplesWriteTheBuffer : Obligations.OnlyAcceptedTriplesWriteTheBuffer := by
  intro s t a hinv ha ht hread
  rcases step_active_sb ha ht with hsame | ⟨hrx, hw⟩
  · exact absurd (congrArg (SongBuffer.read · a) hsame) hread
  · obtain rfl := hw.slot_of_read_ne hread
    obtain ⟨hstate, hacc, hplace, -⟩ := hw
    obtain ⟨hmatch, hover⟩ : s.frame.matched = true ∧ s.frame.oversize = false := by
      simpa [State.accept] using hacc
    exact ⟨hstate, hmatch, hover, hplace, rfl, frameInv_tripleSlot_lt hinv.frame hstate hplace,
      frameInv_len_le_of_not_oversize hinv.frame hstate hover, hrx⟩

/-- Settles O46, from the laws of the Song Buffer's `write`. -/
theorem songBufferWriteThenRead : Obligations.SongBufferWriteThenRead := by
  intro s i e
  refine ⟨fun hi => ⟨_, sbWrite_of_lt hi, rfl, fun a => songBuffer_read_write s.sb i a e, fun a => ?_,
    songBuffer_wf_write e hi⟩, sbWrite_of_maxNotes_le⟩
  by_cases h : a = i <;> simp [State.written, songBuffer_read_write, h]

end Sys2Proof.Claims
end

section
/-! Encoding (30_encoding.md): the round trip between words and instructions, the rows of the opcode table, the length of
a frame, and the header bytes that a node only records. -/

/-! ## Headers, note codes, words -/

namespace Sys2Proof

open Sys2Proof.Machine

theorem headerByte_of_event_toNat {b : Byte} {e : Nibble} (h : (headerEvent b).toNat = e.toNat) :
    headerByte e (headerParam b) = b := by
  rw [← BitVec.eq_of_toNat_eq h, headerByte_fields]

/-- Arm by arm of the opcode map (R91): the arm fixes the event, and `param` is kept whole. The last arm is event 15,
the only one that the others leave. -/
theorem encode_decodeHeader (b : Byte) : encode (decodeHeader b) = .hdr b := by
  have hlt : (headerEvent b).toNat < 16 := (headerEvent b).isLt
  unfold decodeHeader
  split
  case h_16 =>
    have h15 : (headerEvent b).toNat = 15 := by
      simp only [imp_false] at *
      omega
    exact congrArg CodeWord.hdr (headerByte_of_event_toNat h15)
  all_goals exact congrArg CodeWord.hdr (headerByte_of_event_toNat ‹_›)

theorem decodeHeader_wellFormed (b : Byte) : (decodeHeader b).wellFormed = true := by
  unfold decodeHeader
  split <;> rfl

theorem noteWord_of_pitch {w : BitVec 24} {p : Byte} (h : notePitch w = p) : noteWord p (noteDuration w) = w := by
  rw [← h, noteWord_fields]

/-- A playable pitch is told by its low seven bits. -/
theorem setWidth_pitch {p : Byte} (h : p.toNat ≤ 127) : (p.setWidth 7).setWidth 8 = p := by
  apply BitVec.eq_of_toNat_eq
  simp only [BitVec.toNat_setWidth]
  omega

theorem encode_decodeNote (w : BitVec 24) : encode (decodeNote w) = .note w := by
  rcases decodeNote_cases w with ⟨hp, h⟩ | ⟨-, -, h⟩ | ⟨hp, h⟩ | ⟨hp, h⟩ | ⟨hp, h⟩ <;> rw [h] <;>
    refine congrArg CodeWord.note ?_
  · rw [setWidth_pitch hp, noteWord_fields]
  · exact noteWord_fields w
  · exact noteWord_of_pitch hp
  · exact noteWord_of_pitch hp
  · exact noteWord_of_pitch hp

theorem decodeNote_wellFormed (w : BitVec 24) : (decodeNote w).wellFormed = true := by
  rcases decodeNote_cases w with ⟨-, h⟩ | ⟨hlo, hhi, h⟩ | ⟨-, h⟩ | ⟨-, h⟩ | ⟨-, h⟩ <;> rw [h]
  · rfl
  · simp [Instr.wellFormed, hlo, hhi]
  · rfl
  · rfl
  · rfl

theorem encode_decode (c : CodeWord) : encode (decode c) = c := by
  cases c with
  | hdr b => exact encode_decodeHeader b
  | note w => exact encode_decodeNote w

theorem decode_wellFormed (c : CodeWord) : (decode c).wellFormed = true := by
  cases c with
  | hdr b => exact decodeHeader_wellFormed b
  | note w => exact decodeNote_wellFormed w

theorem decodeNote_tone (p : Pitch) (d : Half) : decodeNote (noteWord (p.setWidth 8) d) = .tone p d := by
  have hp : (p.setWidth 8).toNat ≤ 127 := by
    have := p.isLt
    simp only [BitVec.toNat_setWidth]
    omega
  rw [decodeNote, notePitch_noteWord, if_pos hp, noteDuration_noteWord]
  simp

theorem decodeNote_rsvp {p : Byte} (d : Half) (h : (Instr.rsvp p d).wellFormed = true) :
    decodeNote (noteWord p d) = .rsvp p d := by
  obtain ⟨hlo, hhi⟩ : 128 ≤ p.toNat ∧ p.toNat ≤ 252 := by simpa [Instr.wellFormed] using h
  have hnot : ¬ p.toNat ≤ 127 := by omega
  simp [decodeNote, hnot, hhi]

/-- Only the pitch of `rsvp` does not have the full range of its field, and `wellFormed` gives its bounds. -/
theorem decode_encode {i : Instr} (h : i.wellFormed = true) : decode (encode i) = i := by
  cases i with
  | tone p d => exact decodeNote_tone p d
  | rsvp p d => exact decodeNote_rsvp d h
  | sync d | endSong d | rest d => simp [encode, decode, decodeNote]
  | _ n => simp [encode, decode, decodeHeader]

/-- A word's bytes in bus order, read in its stream, are the word again (R69, R90, R94). -/
theorem decodeBytes_bytes (c : CodeWord) (rest : List Byte) :
    decodeBytes c.stream (c.bytes ++ rest) = .ok (decode c, rest) := by
  cases c with
  | hdr b => rfl
  | note w => simp [CodeWord.stream, CodeWord.bytes, decodeBytes, decode]

/-! ## The rows of the opcode table -/

/-- The words of the two rows differ in width or in a bit that both masks look at. -/
abbrev TableRow.Disjoint (r q : TableRow) : Prop :=
  r.width ≠ q.width ∨ r.pattern &&& q.mask ≠ q.pattern &&& r.mask

theorem TableRow.Disjoint.not_both_cover {r q : TableRow} {n w : Nat} (h : r.Disjoint q) (hr : r.covers n w = true) :
    q.covers n w ≠ true := by
  intro hq
  simp only [TableRow.covers, Bool.and_eq_true, beq_iff_eq] at hr hq
  obtain ⟨hrw, hrp⟩ := hr
  obtain ⟨hqw, hqp⟩ := hq
  rcases h with hw | hp
  · exact hw (hrw.trans hqw.symm)
  · exact hp (by rw [← hrp, ← hqp, Nat.and_assoc, Nat.and_assoc, Nat.and_comm r.mask])

theorem opcodeTable_disjoint : opcodeTable.Pairwise TableRow.Disjoint := by decide

namespace Laws.RowMatch

/-- The lemma of each constructor, put together. -/
theorem every : ∀ i : Instr, Statement i
  | .nop n => nop n
  | .load n => load n
  | .rsv2 n => rsv2 n
  | .start n => start n
  | .stop n => stop n
  | .startn n => startn n
  | .stopn n => stopn n
  | .rsv7 n => rsv7 n
  | .syncack n => syncack n
  | .rsv9 n => rsv9 n
  | .rsva n => rsva n
  | .rsvb n => rsvb n
  | .rsvc n => rsvc n
  | .rsvd n => rsvd n
  | .hoste n => hoste n
  | .hostf n => hostf n
  | .tone p d => tone p d
  | .rest d => rest d
  | .endSong d => endSong d
  | .sync d => sync d
  | .rsvp p d => rsvp p d

end Laws.RowMatch

theorem exists_row (c : CodeWord) :
    ∃ r ∈ opcodeTable, r.mnemonic = (decode c).mnemonic ∧ r.covers c.width c.value = true := by
  simpa only [encode_decode] using Laws.RowMatch.every (decode c) (decode_wellFormed c)

/-- A row that a word is of is its only one: of the rows kept, pairwise disjoint, no two can cover the word. -/
theorem rows_eq_singleton {c : CodeWord} {r : TableRow} (hr : r ∈ opcodeTable) (hc : r.covers c.width c.value = true) :
    c.rows = [r] := by
  have hmem : r ∈ c.rows := List.mem_filter.mpr ⟨hr, hc⟩
  have hcover : ∀ q ∈ c.rows, q.covers c.width c.value = true := fun q hq => (List.mem_filter.mp hq).2
  have hdisj : c.rows.Pairwise TableRow.Disjoint := opcodeTable_disjoint.filter _
  match hrows : c.rows with
  | [] => rw [hrows] at hmem; cases hmem
  | [q] => rw [hrows, List.mem_singleton] at hmem; rw [hmem]
  | q₁ :: q₂ :: qs =>
    rw [hrows] at hcover hdisj
    have h₁₂ : q₁.Disjoint q₂ := List.rel_of_pairwise_cons hdisj (by simp)
    exact absurd (hcover q₂ (by simp)) (h₁₂.not_both_cover (hcover q₁ (by simp)))

/-! ## The length of a frame -/

theorem length16_toNat {f : LoadFrame} (h : f.payload.length < 65536) : f.length16.toNat = f.payload.length :=
  Nat.mod_eq_of_lt h

theorem frameLength_load (n : Nibble) (L : Half) (rest : List Byte) :
    frameLength (headerByte 0x1 n :: highByte L :: lowByte L :: rest) = some (4 + L.toNat) := by
  simp [frameLength]

theorem frameLength_of_event_ne {b : Byte} (h : headerEvent b ≠ 1) (rest : List Byte) :
    frameLength (b :: rest) = some 1 :=
  if_neg h

end Sys2Proof

/-! ## Headers that a node only records -/

namespace Sys2Proof.Machine

open Sys2Proof.Safety Sys2Proof.Claims

/-- The headers of events that are no commands only record their header (R151, R152, R157, R159 to R165). -/
theorem exec_ignoredHeader {b : Byte} (h : headerEvent b ∈ [0x0, 0x2, 0x7, 0x9, 0xA, 0xB, 0xC, 0xD, 0xE, 0xF])
    (s : State) : exec (decodeHeader b) s = .next (s.noteHeader (headerEvent b) (headerParam b)) := by
  simp only [List.mem_cons, List.not_mem_nil, or_false] at h
  rcases h with h | h | h | h | h | h | h | h | h | h <;> rw [decodeHeader, h] <;> rfl

/-- A received header whose meaning is only to record itself does exactly that to its cycle. -/
theorem byteEffect_of_recordedHeader {s : State} {b : Byte} (h : Receives s b) (hb : FrameBoundary s)
    (hexec : ∀ u, exec (decodeHeader b) u = .next (u.noteHeader (headerEvent b) (headerParam b))) :
    ByteEffect s (fun u => { u with frame := recordedFrame s.frame b }) := by
  obtain ⟨s₁, -, hframe, -, -, -, -, hwithout, hstep⟩ := step_with_byte h
  have hrecv : receiveByte b s₁ = .next (s₁.noteHeader (headerEvent b) (headerParam b)) := by
    rw [receiveByte, hframe, hb]
    exact hexec s₁
  refine ⟨_, hwithout, ?_⟩
  rw [hstep, hrecv, ← hframe]
  rfl

end Sys2Proof.Machine

namespace Sys2Proof.Claims

open Sys2Proof.Machine Sys2Proof.Safety

/-- Settles O1: field by field, the header event or the kind of pitch fixes the instruction and its operands. -/
theorem decodeEncodeRoundTrip : Obligations.DecodeEncodeRoundTrip :=
  ⟨fun _ => decode_encode, fun c => ⟨encode_decode c, decode_wellFormed c⟩⟩

/-- Settles O2: the word's bytes are its own decoding, and the round trip makes that the instruction. -/
theorem busBytesRoundTrip : Obligations.BusBytesRoundTrip := by
  intro i rest h
  rw [decodeBytes_bytes, decode_encode h]

/-- Settles O3: the decoded instruction has a row, and the rows of the table are pairwise disjoint. -/
theorem opcodeTableClassifiesEveryWord : Obligations.OpcodeTableClassifiesEveryWord := by
  intro c
  obtain ⟨r, hr, hname, hcover⟩ := exists_row c
  exact ⟨r, rows_eq_singleton hr hcover, hname⟩

/-- Settles O4: the eleven words, evaluated. -/
theorem sampleWordsDecode : Obligations.SampleWordsDecode := by
  unfold Obligations.SampleWordsDecode
  decide

/-- Settles O5: the second and third byte of a frame are its length, and any other event is a whole frame. -/
theorem frameLengthFromThreeBytes : Obligations.FrameLengthFromThreeBytes := by
  refine ⟨fun f rest h => ⟨loadFrame_bytes_length f, ?_⟩, fun b rest h => frameLength_of_event_ne h rest⟩
  rw [loadFrame_bytes_length, ← length16_toNat (of_decide_eq_true h)]
  exact frameLength_load f.target f.length16 []

/-- Settles O18: the events of the five response bytes, 0xE, 0xF, 2 and 7, are no commands. -/
theorem responseBytesAreIgnored : Obligations.ResponseBytesAreIgnored := by
  intro s b hb hrecv hbound
  have hevent : headerEvent b ∈ [0x0, 0x2, 0x7, 0x9, 0xA, 0xB, 0xC, 0xD, 0xE, 0xF] := by
    clear hrecv
    decide +revert
  exact byteEffect_of_recordedHeader hrecv hbound (exec_ignoredHeader hevent)

end Sys2Proof.Claims
end

section
/-! A load frame that the node accepts (30_encoding.md R94, R95, 41_frame_receiver.md R122 to R128), byte by byte however
its bytes are spaced: what the receiver holds after each of them, and from that the song in the Song Buffer. -/

/-! ## The receiver's part of a run -/

namespace Sys2Proof.Machine

open Sys2Proof.Safety

/-- What only the receive path writes is the same in both states (R58, R197). -/
structure SameReceiver (s t : State) : Prop where
  frame : t.frame = s.frame
  sb : t.sb = s.sb
  dataReady : t.flags.dataReady = s.flags.dataReady

theorem SameReceiver.refl (s : State) : SameReceiver s s := ⟨rfl, rfl, rfl⟩

theorem SameReceiver.trans {s t u : State} (h : SameReceiver s t) (h' : SameReceiver t u) : SameReceiver s u :=
  ⟨h'.frame.trans h.frame, h'.sb.trans h.sb, h'.dataReady.trans h.dataReady⟩

theorem sameReceiver_endCycle (i : CycleInput) (pre s : State) : SameReceiver s (endCycle i pre s) := ⟨rfl, rfl, rfl⟩

/-- A cycle with no byte leaves what only the receive path writes (R120). -/
theorem step_sameReceiver {s : State} (h : ReceivesNothing s) : ∃ t, step s = .next t ∧ SameReceiver s t := by
  obtain ⟨s₁, h₁, hframe, -, hsb, -, hready, -⟩ := sequencerCycle_frame (beginCycle s.currentInput s.takeInput)
  refine ⟨endCycle s.currentInput s.takeInput s₁, by rw [step_without_byte h, h₁, andThen_next], ?_⟩
  exact ⟨by simpa using hframe, by simpa using hsb, by simpa using hready⟩

/-- A cycle with a byte: the receiver meets what it held before the edge, and what it answers is what it holds after. -/
theorem step_receiveByte {s : State} {b : Byte} (h : Receives s b) :
    ∃ s₁, SameReceiver s s₁ ∧ s₁.nodeid = s.nodeid ∧
      ∀ t, receiveByte b s₁ = .next t → step s = .next (endCycle s.currentInput s.takeInput t) := by
  obtain ⟨s₁, -, hframe, hnode, hsb, -, hready, -, hstep⟩ := step_with_byte h
  exact ⟨s₁, ⟨hframe, hsb, hready⟩, hnode, fun t ht => by rw [hstep, ht, andThen_next]⟩

theorem runsTo_unique {s t t' : State} {ins : List CycleInput} (h : RunsTo s ins t) (h' : RunsTo s ins t') : t = t' :=
  Host.Outcome.next.inj (h.symm.trans h')

theorem bytesOf_cons_none {i : CycleInput} (h : i.rx = none) (ins : List CycleInput) :
    bytesOf (i :: ins) = bytesOf ins :=
  List.filterMap_cons_none h

theorem bytesOf_cons_some {i : CycleInput} {b : Byte} (h : i.rx = some b) (ins : List CycleInput) :
    bytesOf (i :: ins) = b :: bytesOf ins :=
  List.filterMap_cons_some h

theorem bytesOf_append (ins more : List CycleInput) : bytesOf (ins ++ more) = bytesOf ins ++ bytesOf more :=
  List.filterMap_append

/-- A run over any spacing of its bytes. `Q bs s` says of the receiver in `s` that it waits for the bytes `bs`; it has to
be kept by each byte alone. -/
theorem runsTo_of_receiveByte {Q : List Byte → State → Prop}
    (hcongr : ∀ {bs s t}, Q bs s → SameReceiver s t → Q bs t)
    (hbyte : ∀ {b bs s}, Q (b :: bs) s → ∃ t, receiveByte b s = .next t ∧ Q bs t)
    {ins : List CycleInput} {rest : List Byte} {s : State} (hr : NoReset ins) (h : Q (bytesOf ins ++ rest) s) :
    ∃ t, RunsTo s ins t ∧ Q rest t := by
  induction ins generalizing s with
  | nil => exact ⟨_, runsTo_nil.mpr rfl, hcongr h ⟨rfl, rfl, rfl⟩⟩
  | cons i ins ih =>
    obtain ⟨hrst, hr⟩ := List.forall_mem_cons.mp hr
    have hstart : SameReceiver s (withInputs s (i :: ins)) := ⟨rfl, rfl, rfl⟩
    have hcycle : ∃ u, step (withInputs s (i :: ins)) = .next u ∧ Q (bytesOf ins ++ rest) u := by
      cases hrx : i.rx with
      | none =>
        rw [bytesOf_cons_none hrx] at h
        obtain ⟨u, hu, hsame⟩ := step_sameReceiver (s := withInputs s (i :: ins)) ⟨hrst, hrx⟩
        exact ⟨u, hu, hcongr h (hstart.trans hsame)⟩
      | some b =>
        rw [bytesOf_cons_some hrx] at h
        obtain ⟨s₁, hsame, -, hstep⟩ := step_receiveByte (s := withInputs s (i :: ins)) ⟨hrst, hrx⟩
        obtain ⟨t, ht, hQ⟩ := hbyte (hcongr h (hstart.trans hsame))
        exact ⟨_, hstep t ht, hcongr hQ (sameReceiver_endCycle _ _ t)⟩
    obtain ⟨u, hu, hQ⟩ := hcycle
    obtain ⟨t, ht, hQt⟩ := ih hr hQ
    exact ⟨t, runsTo_cons.mpr ⟨u, hu, ht⟩, hQt⟩

/-- Cycles with no byte leave what only the receive path writes. -/
theorem sameReceiver_of_runsTo {s t : State} {ins : List CycleInput} (h : RunsTo s ins t) (hr : NoReset ins)
    (hn : bytesOf ins = []) : SameReceiver s t := by
  obtain ⟨u, hu, -, hsame⟩ := runsTo_of_receiveByte (Q := fun bs u => bs = [] ∧ SameReceiver s u) (rest := [])
    (fun hQ hsame => ⟨hQ.1, hQ.2.trans hsame⟩) (fun hQ => absurd hQ.1 (List.cons_ne_nil _ _)) hr
    ⟨by rw [hn, List.append_nil], SameReceiver.refl s⟩
  rwa [runsTo_unique h hu]

/-! ## Where the first and the last byte of a schedule stand -/

theorem bytesOf_beforeFirstByte (ins : List CycleInput) : bytesOf (beforeFirstByte ins) = [] := by
  refine List.filterMap_eq_nil_iff.mpr fun i hi => ?_
  simpa using List.mem_takeWhile_imp hi

/-- The cycle of the first byte ends `beforeFirstByte`. -/
theorem eq_beforeFirstByte_append {ins : List CycleInput} {b : Byte} {bs : List Byte} (h : Delivers ins (b :: bs)) :
    ∃ i rest, ins = beforeFirstByte ins ++ i :: rest ∧ i.rx = some b ∧ Delivers rest bs := by
  induction ins with
  | nil => cases h
  | cons i ins ih =>
    cases hrx : i.rx with
    | none =>
      rw [Delivers, bytesOf_cons_none hrx] at h
      obtain ⟨j, rest, hins, hj⟩ := ih h
      have hbefore : beforeFirstByte (i :: ins) = i :: beforeFirstByte ins := List.takeWhile_cons_of_pos (by simp [hrx])
      exact ⟨j, rest, by rw [hbefore, List.cons_append, ← hins], hj⟩
    | some c =>
      rw [Delivers, bytesOf_cons_some hrx, List.cons_eq_cons] at h
      obtain ⟨rfl, hbs⟩ := h
      have hbefore : beforeFirstByte (i :: ins) = [] := List.takeWhile_cons_of_neg (by simp [hrx])
      exact ⟨i, ins, by rw [hbefore, List.nil_append], hrx, hbs⟩

/-- A schedule that ends on a byte ends on the last of its bytes. -/
theorem eq_append_of_endsOnByte {ins : List CycleInput} {b : Byte} {bs : List Byte} (hd : Delivers ins (bs ++ [b]))
    (he : EndsOnByte ins) : ∃ init i, ins = init ++ [i] ∧ i.rx = some b ∧ Delivers init bs := by
  rcases List.eq_nil_or_concat ins with rfl | ⟨init, i, rfl⟩
  · exact absurd rfl he
  · obtain ⟨c, hc⟩ : ∃ c, i.rx = some c := Option.ne_none_iff_exists'.mp (by simpa [EndsOnByte] using he)
    have hbytes : bytesOf init ++ [c] = bs ++ [b] := by
      rw [← hd, List.concat_eq_append, bytesOf_append, bytesOf_cons_some hc]
      rfl
    obtain ⟨hinit, hcb⟩ := List.append_inj' hbytes rfl
    exact ⟨init, i, List.concat_eq_append, by rw [hc, List.singleton_inj.mp hcb], hinit⟩

theorem endsOnByte_append_cons {ins more : List CycleInput} {i : CycleInput} (h : more ≠ []) :
    EndsOnByte (ins ++ i :: more) ↔ EndsOnByte more := by
  rw [EndsOnByte, List.getLast?_append_of_ne_nil _ (List.cons_ne_nil i more), List.getLast?_cons_of_ne_nil h]

/-- The cycles of a schedule's first byte and of its last, on which it ends, and what comes between them. -/
theorem eq_first_mid_last {ins : List CycleInput} {b c : Byte} {bs : List Byte} (hd : Delivers ins (b :: (bs ++ [c])))
    (he : EndsOnByte ins) :
    ∃ first mid last, ins = beforeFirstByte ins ++ first :: (mid ++ [last]) ∧ first.rx = some b ∧ Delivers mid bs ∧
      last.rx = some c := by
  obtain ⟨first, rest, hins, hfirst, hrest⟩ := eq_beforeFirstByte_append hd
  have hne : rest ≠ [] := by
    rintro rfl
    exact List.append_ne_nil_of_right_ne_nil bs (List.cons_ne_nil c []) hrest.symm
  rw [hins, endsOnByte_append_cons hne] at he
  obtain ⟨mid, last, rfl, hlast, hmid⟩ := eq_append_of_endsOnByte hrest he
  exact ⟨first, mid, last, hins, hfirst, hmid, hlast⟩

/-! ## One byte of an accepted frame -/

/-- `s` with an accepted payload byte in its place: in the checksum, in a staging register, or, the third of its triple,
with that triple in the Song Buffer (R126). -/
def storeByte (b : Byte) (s : State) : State :=
  { s with
    frame := { s.frame with
      csum := csumStep s.frame.csum b
      stagePitch := if triplePlace s.frame.count = 0 then b else s.frame.stagePitch
      stageDhi := if triplePlace s.frame.count = 1 then b else s.frame.stageDhi }
    sb := if triplePlace s.frame.count = 2
      then SongBuffer.write s.sb (tripleSlot s.frame.count) ⟨s.frame.stagePitch, bigEndian s.frame.stageDhi b⟩
      else s.sb }

/-- Inside the Song Buffer an accepted payload byte is stored, place by place of its triple. -/
theorem acceptByte_eq_storeByte {b : Byte} {s : State}
    (h : triplePlace s.frame.count = 2 → tripleSlot s.frame.count < Config.maxNotes) :
    acceptByte b s = .next (storeByte b s) := by
  rcases acceptByte_cases b s with ⟨hplace, ha⟩ | ⟨hplace, ha⟩ | ⟨hplace, ha⟩ <;> rw [ha]
  · simp [storeByte, hplace]
  · simp [storeByte, hplace]
  · rw [sbWrite_of_lt (h hplace)]
    simp [storeByte, hplace]

theorem payloadByte_accepted {b : Byte} {s : State} (hacc : s.accept = true)
    (h : triplePlace s.frame.count = 2 → tripleSlot s.frame.count < Config.maxNotes) :
    payloadByte b s = .next (countByte (storeByte b s)) := by
  rw [payloadByte, if_pos hacc, acceptByte_eq_storeByte h, andThen_next]

theorem storeByte_sbRead (b : Byte) (s : State) (a : Nat) :
    (storeByte b s).sbRead a = if triplePlace s.frame.count = 2 ∧ a = tripleSlot s.frame.count
      then some ⟨s.frame.stagePitch, bigEndian s.frame.stageDhi b⟩ else s.sbRead a := by
  by_cases hplace : triplePlace s.frame.count = 2
  · simp [State.sbRead, storeByte, hplace, songBuffer_read_write]
  · simp [State.sbRead, storeByte, hplace]

@[simp] theorem checkByte_sb (b : Byte) (s : State) : (checkByte b s).sb = s.sb := by
  obtain ⟨-, -, -, -, hsb, -⟩ := judgeFrame_frame b s
  rw [checkByte, completeFrame_sb, hsb]

/-- The verdict on an accepted frame (R127): the check byte decides. -/
theorem checkByte_flags_accepted {b : Byte} {s : State} (hacc : s.accept = true) :
    (checkByte b s).flags = { s.flags with
      dataReady := decide (b = s.frame.csum)
      sendResponse := true
      responseData := if b = s.frame.csum then respLoadOk else respMismatch } := by
  obtain ⟨hmatch, hover⟩ : s.frame.matched = true ∧ s.frame.oversize = false := by simpa [State.accept] using hacc
  by_cases hb : b = s.frame.csum <;> simp [checkByte, judgeFrame, hmatch, hover, hb]

/-! ## What the receiver holds along an accepted frame -/

/-- The declared length of a payload (R92). -/
abbrev lengthOf (p : List Byte) : Half := BitVec.ofNat 16 p.length

/-- A load frame for this node has begun and no payload byte has come: `m` is the Song Buffer. -/
structure LoadBegun (m : SongBuffer) (s : State) : Prop where
  count : s.frame.count = 0
  csum : s.frame.csum = 0
  matched : s.frame.matched = true
  sb : s.sb = m

/-- `k` bytes of the payload `p` of an accepted frame have come and stand where they belong; `m` was the Song Buffer
before the frame (R94, R95, R126). -/
structure PayloadStored (p : List Byte) (m : SongBuffer) (k : Nat) (s : State) : Prop where
  state : s.frame.state = if k = p.length then .check else .payload
  len : s.frame.len = lengthOf p
  count : s.frame.count.toNat = k
  csum : s.frame.csum = xorAll (p.take k)
  accept : s.accept = true
  stagePitch : k % 3 ≠ 0 → s.frame.stagePitch = p.getD (3 * (k / 3)) 0
  stageDhi : k % 3 = 2 → s.frame.stageDhi = p.getD (3 * (k / 3) + 1) 0
  reads : ∀ a, s.sbRead a = if a < k / 3 then some (Claims.payloadEntry p a) else SongBuffer.read m a

/-- In `s` the receiver waits for the bytes `bs` of an accepted frame with the payload `p`, its check byte aside. -/
def LoadProgress (p : List Byte) (m : SongBuffer) (bs : List Byte) (s : State) : Prop :=
  (bs = highByte (lengthOf p) :: lowByte (lengthOf p) :: p ∧ s.frame.state = .lenHi ∧ LoadBegun m s) ∨
  (bs = lowByte (lengthOf p) :: p ∧ s.frame.state = .lenLo ∧ highByte s.frame.len = highByte (lengthOf p) ∧
    LoadBegun m s) ∨
  ∃ k, k ≤ p.length ∧ bs = p.drop k ∧ PayloadStored p m k s

theorem LoadBegun.congr {m : SongBuffer} {s t : State} (h : LoadBegun m s) (hst : SameReceiver s t) : LoadBegun m t :=
  ⟨by rw [hst.frame, h.count], by rw [hst.frame, h.csum], by rw [hst.frame, h.matched], hst.sb.trans h.sb⟩

theorem PayloadStored.congr {p : List Byte} {m : SongBuffer} {k : Nat} {s t : State} (h : PayloadStored p m k s)
    (hst : SameReceiver s t) : PayloadStored p m k t := by
  obtain ⟨hframe, hsb, -⟩ := hst
  exact ⟨by rw [hframe, h.state], by rw [hframe, h.len], by rw [hframe, h.count], by rw [hframe, h.csum],
    by rw [State.accept, hframe]; exact h.accept, by rw [hframe]; exact h.stagePitch,
    by rw [hframe]; exact h.stageDhi, by intro a; rw [State.sbRead, hsb]; exact h.reads a⟩

theorem LoadProgress.congr {p bs : List Byte} {m : SongBuffer} {s t : State} (h : LoadProgress p m bs s)
    (hst : SameReceiver s t) : LoadProgress p m bs t := by
  rcases h with ⟨hbs, hs, hbegun⟩ | ⟨hbs, hs, hhigh, hbegun⟩ | ⟨k, hk, hbs, hstored⟩
  · exact .inl ⟨hbs, by rw [hst.frame, hs], hbegun.congr hst⟩
  · exact .inr (.inl ⟨hbs, by rw [hst.frame, hs], by rw [hst.frame, hhigh], hbegun.congr hst⟩)
  · exact .inr (.inr ⟨k, hk, hbs, hstored.congr hst⟩)

theorem lengthOf_toNat {p : List Byte} (h : p.length / 3 ≤ Config.maxNotes) : (lengthOf p).toNat = p.length := by
  have hcap : p.length / 3 ≤ 600 := h
  rw [BitVec.toNat_ofNat]
  omega

/-- The length's low byte of a frame in capacity: no payload byte has come, and a frame of length 0 waits for its check
byte (R124). -/
theorem LoadBegun.lengthLow {p : List Byte} {m : SongBuffer} {s : State} (h : LoadBegun m s)
    (hcap : p.length / 3 ≤ Config.maxNotes) (hhigh : highByte s.frame.len = highByte (lengthOf p)) :
    PayloadStored p m 0 (lengthLow (lowByte (lengthOf p)) s) := by
  have hL : declaredLength (lowByte (lengthOf p)) s = lengthOf p := by rw [declaredLength, hhigh, bigEndian_bytes]
  have hzero : lengthOf p = 0 ↔ 0 = p.length := by
    rw [← lengthOf_toNat hcap, ← BitVec.toNat_inj, eq_comm]; rfl
  have hfits : oversizeLength (lengthOf p) = false := by
    rw [oversizeLength, lengthOf_toNat hcap]
    exact decide_eq_false hcap.not_gt
  exact {
    state := by simp only [lengthLow_frame, hL, hzero]
    len := hL
    count := by simp [h.count]
    csum := by simp [h.csum]
    accept := by simp [State.accept, h.matched, hL, hfits]
    stagePitch := fun hk => absurd rfl hk
    stageDhi := fun hk => absurd hk (by decide)
    reads := fun a => by simp [State.sbRead, h.sb] }

@[simp] theorem storeByte_frame (b : Byte) (s : State) : (storeByte b s).frame = { s.frame with
    csum := csumStep s.frame.csum b
    stagePitch := if triplePlace s.frame.count = 0 then b else s.frame.stagePitch
    stageDhi := if triplePlace s.frame.count = 1 then b else s.frame.stageDhi } := rfl

section NextPayloadByte

variable {p : List Byte} {m : SongBuffer} {k : Nat} {s : State} (h : PayloadStored p m k s)
include h

theorem PayloadStored.place : triplePlace s.frame.count = k % 3 := by rw [triplePlace, h.count]

theorem PayloadStored.slot : tripleSlot s.frame.count = k / 3 := by rw [tripleSlot, h.count]

theorem PayloadStored.state_payload (hk : k < p.length) : s.frame.state = .payload := by rw [h.state, if_neg hk.ne]

theorem PayloadStored.count_succ (hcap : p.length / 3 ≤ Config.maxNotes) (hk : k < p.length) :
    (s.frame.count + 1).toNat = k + 1 := by
  have hlt : p.length < 65536 := by rw [← lengthOf_toNat hcap]; exact (lengthOf p).isLt
  rw [BitVec.toNat_add, h.count]
  exact Nat.mod_eq_of_lt (show k + 1 < 65536 by omega)

/-- The third byte of triple `k / 3` completes the entry that the payload encodes there (R94). -/
theorem PayloadStored.entry (hk : k < p.length) (hthird : k % 3 = 2) :
    (⟨s.frame.stagePitch, bigEndian s.frame.stageDhi p[k]⟩ : NoteEntry) = Claims.payloadEntry p (k / 3) := by
  have hlow : p[k] = p.getD (3 * (k / 3) + 2) 0 := by
    rw [show 3 * (k / 3) + 2 = k by omega]
    simp [hk]
  rw [h.stagePitch (by omega), h.stageDhi hthird, hlow]

theorem PayloadStored.reads_succ (hk : k < p.length) (a : Nat) :
    (storeByte p[k] s).sbRead a =
      if a < (k + 1) / 3 then some (Claims.payloadEntry p a) else SongBuffer.read m a := by
  rw [storeByte_sbRead, h.place, h.slot, h.reads]
  by_cases hthird : k % 3 = 2
  · have hsucc : (k + 1) / 3 = k / 3 + 1 := by omega
    rw [hsucc, h.entry hk hthird]
    rcases Nat.lt_trichotomy a (k / 3) with ha | rfl | ha
    · rw [if_neg (by omega), if_pos ha, if_pos (by omega)]
    · rw [if_pos ⟨hthird, rfl⟩, if_pos (by omega)]
    · rw [if_neg (by omega), if_neg (by omega), if_neg (by omega)]
  · have hsucc : (k + 1) / 3 = k / 3 := by omega
    rw [hsucc, if_neg (by omega)]

/-- Counted and stored, the next payload byte stands where it belongs. -/
theorem PayloadStored.succ (hcap : p.length / 3 ≤ Config.maxNotes) (hk : k < p.length) :
    PayloadStored p m (k + 1) (countByte (storeByte p[k] s)) where
  state := by
    have hlast : s.frame.count + 1 = s.frame.len ↔ k + 1 = p.length := by
      rw [← BitVec.toNat_inj, h.count_succ hcap hk, h.len, lengthOf_toNat hcap]
    simp only [countByte_frame, storeByte_frame, hlast, h.state_payload hk]
  len := h.len
  count := h.count_succ hcap hk
  csum := by
    simp only [countByte_frame, storeByte_frame, csumStep, h.csum]
    rw [List.take_succ_eq_append_getElem hk, xorAll_append, xorAll_cons, xorAll_nil,
      show p[k] ^^^ (0 : Byte) = p[k] from BitVec.xor_zero]
  accept := h.accept
  stagePitch := fun hnext => by
    simp only [countByte_frame, storeByte_frame, h.place]
    have hslot : (k + 1) / 3 = k / 3 := by omega
    split
    · rw [show 3 * ((k + 1) / 3) = k by omega]; simp [hk]
    · rw [h.stagePitch ‹_›, hslot]
  stageDhi := fun hnext => by
    simp only [countByte_frame, storeByte_frame, h.place]
    rw [if_pos (by omega), show 3 * ((k + 1) / 3) + 1 = k by omega]
    simp [hk]
  reads := h.reads_succ hk

theorem PayloadStored.receiveByte_eq (hcap : p.length / 3 ≤ Config.maxNotes) (hk : k < p.length) :
    receiveByte p[k] s = .next (countByte (storeByte p[k] s)) := by
  rw [receiveByte, h.state_payload hk]
  exact payloadByte_accepted h.accept (by rw [h.place, h.slot]; omega)

end NextPayloadByte

/-- Every byte of an accepted frame between its header and its check byte brings the receiver on by one. -/
theorem LoadProgress.receiveByte_next {p bs : List Byte} {m : SongBuffer} {b : Byte} {s : State}
    (hcap : p.length / 3 ≤ Config.maxNotes) (h : LoadProgress p m (b :: bs) s) :
    ∃ t, receiveByte b s = .next t ∧ LoadProgress p m bs t := by
  rcases h with ⟨hbs, hs, hbegun⟩ | ⟨hbs, hs, hhigh, hbegun⟩ | ⟨k, hk, hbs, hstored⟩
  · obtain ⟨rfl, rfl⟩ := List.cons.inj hbs
    refine ⟨lengthHigh (highByte (lengthOf p)) s, by rw [receiveByte, hs], .inr (.inl ⟨rfl, rfl, ?_, ?_⟩)⟩
    · exact highByte_bigEndian _ _
    · exact ⟨hbegun.count, hbegun.csum, hbegun.matched, hbegun.sb⟩
  · obtain ⟨rfl, rfl⟩ := List.cons.inj hbs
    exact ⟨lengthLow (lowByte (lengthOf bs)) s, by rw [receiveByte, hs],
      .inr (.inr ⟨0, Nat.zero_le _, rfl, hbegun.lengthLow hcap hhigh⟩)⟩
  · have hlt : k < p.length := by
      by_contra hge
      rw [List.drop_eq_nil_of_le (not_lt.mp hge)] at hbs
      cases hbs
    rw [List.drop_eq_getElem_cons hlt] at hbs
    obtain ⟨rfl, rfl⟩ := List.cons.inj hbs
    exact ⟨_, hstored.receiveByte_eq hcap hlt, .inr (.inr ⟨k + 1, hlt, rfl, hstored.succ hcap hlt⟩)⟩

theorem LoadProgress.payloadStored {p : List Byte} {m : SongBuffer} {s : State} (h : LoadProgress p m [] s) :
    PayloadStored p m p.length s := by
  rcases h with ⟨hbs, -⟩ | ⟨hbs, -⟩ | ⟨k, hk, hbs, hstored⟩
  · cases hbs
  · cases hbs
  · have hlen : k = p.length := le_antisymm hk (List.drop_eq_nil_iff.mp hbs.symm)
    rwa [← hlen]

/-! ## The header's cycle and the check byte's -/

/-- The header of a frame for this node, received at a frame boundary, begins the frame (R122). -/
theorem step_loadHeader {s : State} {n : Nibble} (p : List Byte) (h : Receives s (headerByte 0x1 n))
    (hb : FrameBoundary s) (hn : n = s.nodeid) :
    ∃ t, step s = .next t ∧ LoadProgress p s.sb (highByte (lengthOf p) :: lowByte (lengthOf p) :: p) t := by
  obtain ⟨s₁, hsame, hnode, hstep⟩ := step_receiveByte h
  have hload : decodeHeader (headerByte 0x1 n) = .load n := by simp [decodeHeader]
  have hrecv := hstep _ (by rw [receiveByte, hsame.frame, hb, hload]; rfl)
  exact ⟨_, hrecv, .inl ⟨rfl, rfl, rfl, rfl, by simp [State.addressed, hnode, hn], hsame.sb⟩⟩

/-- The check byte's cycle of an accepted frame: the verdict stands in the flags, whatever the other agents do in the
cycle, and the Song Buffer stays (R127). -/
theorem step_checkByte {s : State} {b : Byte} {p : List Byte} {m : SongBuffer} (h : Receives s b)
    (hstored : PayloadStored p m p.length s) :
    ∃ t, step s = .next t ∧ t.sb = s.sb ∧ t.flags.dataReady = decide (b = xorAll p) ∧ t.flags.sendResponse = true ∧
      t.flags.responseData = if b = xorAll p then respLoadOk else respMismatch := by
  obtain ⟨s₁, hsame, -, hstep⟩ := step_receiveByte h
  have hstored₁ := hstored.congr hsame
  have hcsum : s₁.frame.csum = xorAll p := by rw [hstored₁.csum, List.take_length]
  have hrecv := hstep _ (by rw [receiveByte, hstored₁.state, if_pos rfl])
  refine ⟨_, hrecv, ?_⟩
  rw [endCycle_sb, endCycle_flags, checkByte_sb, checkByte_flags_accepted hstored₁.accept, hcsum]
  exact ⟨hsame.sb, rfl, rfl, rfl⟩

/-- A whole load frame in capacity for this node (R130): its complete triples stand in the Song Buffer, and the check
byte decides between 0xE0 and 0xF0. -/
theorem runsTo_acceptedFrame {f : LoadFrame} {s u : State} {ins : List CycleInput}
    (hcap : f.payload.length / 3 ≤ Config.maxNotes) (hb : FrameBoundary s) (hr : NoReset ins)
    (hu : RunsTo s (beforeFirstByte ins) u) (hn : f.target = u.nodeid) (hd : Delivers ins f.bytes)
    (he : EndsOnByte ins) :
    ∃ t, RunsTo s ins t ∧ Claims.HoldsTriples s t f.payload ∧
      t.flags.dataReady = decide (f.check = xorAll f.payload) ∧ t.flags.sendResponse = true ∧
      t.flags.responseData = if f.check = xorAll f.payload then respLoadOk else respMismatch := by
  obtain ⟨first, mid, last, hins, hfirst, hmid, hlast⟩ := eq_first_mid_last
    (bs := highByte f.length16 :: lowByte f.length16 :: f.payload) hd he
  obtain ⟨hrbefore, hrfirst, hrmid, hrlast⟩ : NoReset (beforeFirstByte ins) ∧ first.rst = false ∧ NoReset mid ∧
      last.rst = false := by
    rw [hins] at hr
    simpa [NoReset, or_imp, forall_and] using hr
  have hsu := sameReceiver_of_runsTo hu hrbefore (bytesOf_beforeFirstByte ins)
  obtain ⟨v, hv, hbegun⟩ := step_loadHeader (s := withInputs u (first :: (mid ++ [last]))) f.payload
    ⟨hrfirst, hfirst⟩ (by rw [FrameBoundary, ← hb, ← hsu.frame]; rfl) hn
  obtain ⟨w, hw, hprogress⟩ := runsTo_of_receiveByte (Q := LoadProgress f.payload u.sb) (rest := [])
    LoadProgress.congr (LoadProgress.receiveByte_next hcap) hrmid (by rw [hmid, List.append_nil]; exact hbegun)
  have hstored := hprogress.payloadStored
  obtain ⟨t, ht, hsb, hflags⟩ := step_checkByte (s := withInputs w [last]) ⟨hrlast, hlast⟩
    (hstored.congr ⟨rfl, rfl, rfl⟩)
  refine ⟨withInputs t [], ?_, fun a => ?_, hflags⟩
  · rw [hins]
    exact runsTo_append.mpr ⟨u, hu, runsTo_cons.mpr ⟨v, hv, runsTo_append.mpr ⟨w, hw,
      runsTo_cons.mpr ⟨t, ht, runsTo_nil.mpr rfl⟩⟩⟩⟩
  · have hreads := hstored.reads a
    rw [hsu.sb] at hreads
    rw [State.sbRead, show (withInputs t []).sb = w.sb from hsb]
    exact hreads

end Sys2Proof.Machine

/-! ## Songs -/

namespace Sys2Proof

theorem songPayload_length (song : List NoteEntry) : (song.flatMap NoteEntry.payload).length = 3 * song.length := by
  induction song with
  | nil => rfl
  | cons e song ih =>
    rw [List.flatMap_cons, List.length_append, ih, List.length_cons, Nat.mul_succ, Nat.add_comm]
    rfl

/-- Triple `j` of a song's payload is its entry `j` (R94). -/
theorem payloadEntry_song {song : List NoteEntry} {j : Nat} (h : j < song.length) :
    some (Claims.payloadEntry (song.flatMap NoteEntry.payload) j) = song[j]? := by
  induction song generalizing j with
  | nil => cases h
  | cons e song ih =>
    cases j with
    | zero => simp [Claims.payloadEntry, NoteEntry.payload]
    | succ j =>
      rw [List.getElem?_cons_succ, ← ih (Nat.lt_of_succ_lt_succ h)]
      simp [Claims.payloadEntry, NoteEntry.payload, Nat.mul_add]

end Sys2Proof

namespace Sys2Proof.Claims

open Sys2Proof.Machine Sys2Proof.Safety

/-- Settles O27: the song's frame is in capacity and bears its own checksum, and its triples are the song's entries. -/
theorem loadedSongIsTheSongSent : Obligations.LoadedSongIsTheSongSent := by
  intro song s u ins hlen hb hr hu hd he
  have hthird : (song.flatMap NoteEntry.payload).length / 3 = song.length := by
    rw [songPayload_length, Nat.mul_div_cancel_left _ (by decide)]
  obtain ⟨t, ht, hreads, hready, hsend, hresp⟩ := runsTo_acceptedFrame (by rw [LoadFrame.ofEntries, hthird]; exact hlen)
    hb hr hu rfl hd he
  refine ⟨t, ht, fun j hj => ?_, by rw [hready]; exact decide_eq_true rfl, hsend, by rw [hresp]; exact if_pos rfl⟩
  rw [hreads j, ← payloadEntry_song hj]
  exact if_pos (by rw [LoadFrame.ofEntries, hthird]; exact hj)

end Sys2Proof.Claims
end

section
/-! The frame receiver (41_frame_receiver.md), byte by byte: what each byte of a load frame does to its cycle, beside
the same cycle without it. -/

/-! ## From the receiver's part to the cycle -/

namespace Sys2Proof.Machine

open Sys2Proof.Safety

/-- What a byte does to a cycle is what it does to the receiver's part, as long as it reads only what the other agents
leave and writes neither the node ID nor the outputs (`hend`). -/
theorem byteEffect_of_receiveByte {s : State} {b : Byte} {f : State → State} (h : Receives s b)
    (hend : ∀ i p u, endCycle i p (f u) = f (endCycle i p u))
    (hrecv : ∀ u, SameReceiver s u → u.nodeid = s.nodeid → receiveByte b u = .next (f u)) : ByteEffect s f := by
  obtain ⟨s₁, -, hframe, hnode, hsb, -, hready, hwithout, hstep⟩ := step_with_byte h
  refine ⟨_, hwithout, ?_⟩
  rw [hstep, hrecv s₁ ⟨hframe, hsb, hready⟩ hnode, andThen_next, hend]

/-- The cycle without the byte, of which the byte's effect speaks, leaves what only the receive path writes. -/
theorem step_of_byteEffect {s : State} {b : Byte} {f : State → State} (h : Receives s b) (hf : ByteEffect s f) :
    ∃ u, step (withoutByte s) = .next u ∧ SameReceiver s u ∧ step s = .next (f u) := by
  obtain ⟨u, hu, hstep⟩ := hf
  obtain ⟨u', hu', hsame⟩ := step_sameReceiver (s := withoutByte s) ⟨h.1, rfl⟩
  rw [hu] at hu'; cases hu'
  exact ⟨u, hu, ⟨hsame.frame, hsame.sb, hsame.dataReady⟩, hstep⟩

theorem receiveByte_idle {s : State} (b : Byte) (h : s.frame.state = .idle) :
    receiveByte b s = exec (decodeHeader b) s := by rw [receiveByte, h]

theorem receiveByte_lenHi {s : State} (b : Byte) (h : s.frame.state = .lenHi) :
    receiveByte b s = .next (lengthHigh b s) := by rw [receiveByte, h]

theorem receiveByte_lenLo {s : State} (b : Byte) (h : s.frame.state = .lenLo) :
    receiveByte b s = .next (lengthLow b s) := by rw [receiveByte, h]

theorem receiveByte_payload {s : State} (b : Byte) (h : s.frame.state = .payload) :
    receiveByte b s = payloadByte b s := by rw [receiveByte, h]

theorem receiveByte_check {s : State} (b : Byte) (h : s.frame.state = .check) :
    receiveByte b s = .next (checkByte b s) := by rw [receiveByte, h]

theorem addressed_eq_decide (s : State) (n : Nibble) : s.addressed n = decide (n = s.nodeid) := rfl

theorem decodeHeader_load {b : Byte} (h : headerEvent b = 1) : decodeHeader b = .load (headerParam b) := by
  rw [decodeHeader, h]; rfl

theorem execLoad_eq (n : Nibble) (s : State) :
    execLoad n s = .next { s with
      frame := { s.frame with
        state := .lenHi, event := 1, param := n, len := 0, count := 0, csum := 0,
        matched := decide (n = s.nodeid), oversize := false }
      flags := { s.flags with dataReady := if n = s.nodeid then false else s.flags.dataReady } } := by
  simp [execLoad, addressed_eq_decide]

/-! ## The verdict on a frame (R127) -/

theorem judgeFrame_unmatched {s : State} (b : Byte) (h : s.frame.matched = false) : judgeFrame b s = s := if_pos h

theorem judgeFrame_oversize {s : State} (b : Byte) (hmatch : s.frame.matched = true) (h : s.frame.oversize = true) :
    judgeFrame b s = s.queue respOversize := by
  simp [judgeFrame, hmatch, h]

theorem judgeFrame_csum {s : State} {b : Byte} (hmatch : s.frame.matched = true) (hover : s.frame.oversize = false)
    (h : b = s.frame.csum) : judgeFrame b s = (s.setReady true).queue respLoadOk := by
  simp [judgeFrame, hmatch, hover, h]

theorem judgeFrame_mismatch {s : State} {b : Byte} (hmatch : s.frame.matched = true) (hover : s.frame.oversize = false)
    (h : b ≠ s.frame.csum) : judgeFrame b s = (s.setReady false).queue respMismatch := by
  simp [judgeFrame, hmatch, hover, h]

/-! ## The payload (R126) -/

/-- An accepted payload byte finds its slot inside the Song Buffer (R82). -/
theorem tripleSlot_lt_maxNotes {r : InboundFrame} (h : FrameInv r) (hs : r.state = .payload)
    (hover : r.oversize = false) (hplace : triplePlace r.count = 2) : tripleSlot r.count < Config.maxNotes :=
  (frameInv_tripleSlot_lt h hs hplace).trans_le (frameInv_len_le_of_not_oversize h hs hover)

end Sys2Proof.Machine

/-! ## The statements about one byte -/

namespace Sys2Proof.Claims

open Sys2Proof.Machine Sys2Proof.Safety

/-- Settles O6: the sequencer's part leaves the frame, so the receive path meets the header at a frame boundary. -/
theorem stepRunsReceivedHeader : Obligations.StepRunsReceivedHeader := by
  intro s b h hb
  obtain ⟨s₁, h₁, hframe, -, -, -, -, -, hstep⟩ := step_with_byte h
  rw [hstep, h₁, andThen_next, receiveByte_idle b (by rw [hframe, hb])]
  rfl

/-- Settles O10: the meaning of LOAD, with the target comparison written out. -/
theorem loadStartCompletes : Obligations.LoadStartCompletes := execLoad_eq

/-- Settles O19: the header runs as LOAD, on the node ID and the `dataReady` of the state before the edge. -/
theorem loadHeaderOpensAFrame : Obligations.LoadHeaderOpensAFrame := by
  intro s b h hb hevent
  refine byteEffect_of_receiveByte h (fun _ _ _ => rfl) fun u hu hnode => ?_
  rw [receiveByte_idle b (by rw [hu.frame, hb]), decodeHeader_load hevent, ← hu.frame, ← hu.dataReady, ← hnode]
  exact execLoad_eq _ u

/-- Settles O20: the two length bytes write the frame only, and 1803 is the first length of 601 triples. -/
theorem lengthBytesAreAssembled : Obligations.LengthBytesAreAssembled := by
  intro s b h
  refine ⟨fun hs => ?_, fun hs L hL => ?_, fun L => ?_⟩
  · refine byteEffect_of_receiveByte h (fun _ _ _ => rfl) fun u hu _ => ?_
    rw [receiveByte_lenHi b (by rw [hu.frame, hs]), ← hu.frame]
    rfl
  · subst hL
    refine byteEffect_of_receiveByte h (fun _ _ _ => rfl) fun u hu _ => ?_
    rw [receiveByte_lenLo b (by rw [hu.frame, hs]), ← hu.frame]
    rfl
  · rw [show Config.maxNotes = 600 from rfl]
    omega

/-- Settles O21: the frame invariant keeps the slot inside the Song Buffer, so the byte is stored and counted. -/
theorem acceptedPayloadByteIsStored : Obligations.AcceptedPayloadByteIsStored := by
  rintro s b h hinv hs hmatch hover _ rfl
  have hslot : triplePlace s.frame.count = 2 → tripleSlot s.frame.count < Config.maxNotes :=
    tripleSlot_lt_maxNotes hinv hs hover
  refine ⟨hslot, ?_⟩
  have heffect : ByteEffect s (fun u => countByte (storeByte b { u with frame := s.frame, sb := s.sb })) := by
    refine byteEffect_of_receiveByte h (fun _ _ _ => rfl) fun u hu _ => ?_
    rw [receiveByte_payload b (by rw [hu.frame, hs]), ← hu.frame, ← hu.sb]
    exact payloadByte_accepted (by simp [State.accept, hu.frame, hmatch, hover]) (by rwa [hu.frame])
  obtain ⟨u, hu, hstep⟩ := heffect
  refine ⟨u, _, hu, hstep, ?_, storeByte_sbRead b { u with frame := s.frame, sb := s.sb }⟩
  simp only [countByte, storeByte, hs]
  rfl

/-- Settles O22: a frame that is not accepted only counts. -/
theorem discardedPayloadByteIsCounted : Obligations.DiscardedPayloadByteIsCounted := by
  intro s b h hs hnot
  have hacc : s.accept = false := by
    rcases hnot with hmatch | hover
    · simp [State.accept, hmatch]
    · simp [State.accept, hover]
  refine byteEffect_of_receiveByte h (fun _ _ _ => rfl) fun u hu _ => ?_
  rw [receiveByte_payload b (by rw [hu.frame, hs]),
    payloadByte_discarded b (by rw [State.accept, hu.frame]; exact hacc), ← hs, ← hu.frame]
  rfl

/-- Settles O23, verdict by verdict; the frame's completion follows each. -/
theorem checkByteDecidesTheFrame : Obligations.CheckByteDecidesTheFrame := by
  intro s b h hs
  have hcheck : ∀ {f : State → State}, (∀ i p u, endCycle i p (f u) = f (endCycle i p u)) →
      (∀ u, u.frame = s.frame → completeFrame (judgeFrame b u) = f u) → ByteEffect s f := by
    refine fun hend hf => byteEffect_of_receiveByte h hend fun u hu _ => ?_
    rw [receiveByte_check b (by rw [hu.frame, hs]), checkByte, hf u hu.frame]
  refine ⟨fun hmatch => ?_, fun hmatch hover => ?_, fun hmatch hover hb => ?_, fun hmatch hover hb => ?_⟩
  · refine hcheck (fun _ _ _ => rfl) fun u hu => ?_
    rw [judgeFrame_unmatched b (by rw [hu, hmatch]), ← hu]
    rfl
  · refine hcheck (fun _ _ _ => rfl) fun u hu => ?_
    rw [judgeFrame_oversize b (by rw [hu, hmatch]) (by rw [hu, hover]), ← hu]
    rfl
  · refine hcheck (fun _ _ _ => rfl) fun u hu => ?_
    rw [judgeFrame_csum (by rw [hu, hmatch]) (by rw [hu, hover]) (by rw [hu, hb]), ← hu]
    rfl
  · refine hcheck (fun _ _ _ => rfl) fun u hu => ?_
    rw [judgeFrame_mismatch (by rw [hu, hmatch]) (by rw [hu, hover]) (by rw [hu]; exact hb), ← hu]
    rfl

/-- Settles O24: without a byte only the sequencer, the transmitter, the timer and the buttons act. -/
theorem noByteNoFrameChange : Obligations.NoByteNoFrameChange := by
  intro s h
  obtain ⟨t, ht, hframe, hsb, hready⟩ := step_sameReceiver h
  exact ⟨t, ht, hframe, hsb, hready⟩

end Sys2Proof.Claims
end

section
/-! Byte synchronisation (41_frame_receiver.md R131): which registers of the receiver follow the bus, where they stand
along a load frame, and from that the outcome of a whole frame (R130). -/

/-! ## The registers that follow the bus -/

namespace Sys2Proof.Machine

open Sys2Proof.Safety

/-- What tells the receiver where in a frame it stands: `fr_state`, `fr_len` and `fr_count`. -/
structure BusSync where
  state : FrameState
  len : Half
  count : Half

def syncOf (r : InboundFrame) : BusSync := ⟨r.state, r.len, r.count⟩

/-- The synchronisation after the byte `b` (R122 to R126, R128): it reads nothing of the receiver but itself. -/
def syncAfter (b : Byte) (y : BusSync) : BusSync :=
  match y.state with
  | .idle => if headerEvent b = 1 then ⟨.lenHi, 0, 0⟩ else y
  | .lenHi => ⟨.lenLo, bigEndian b (lowByte y.len), y.count⟩
  | .lenLo => ⟨if bigEndian (highByte y.len) b = 0 then .check else .payload, bigEndian (highByte y.len) b, y.count⟩
  | .payload => ⟨if y.count + 1 = y.len then .check else .payload, y.len, y.count + 1⟩
  | .check => ⟨.idle, 0, 0⟩

/-- A header of any event but 1 only records its nibbles in the frame registers (R121): arm 2 is event 1, arms 6 and 7
compare their target first. -/
theorem execHeader_records {b : Byte} {s t : State} (h : headerEvent b ≠ 1) (ht : exec (decodeHeader b) s = .next t) :
    ∃ e n, t.frame = { s.frame with event := e, param := n } := by
  unfold decodeHeader at ht
  split at ht <;> cases ht
  case h_2 hevent => exact absurd (BitVec.eq_of_toNat_eq hevent) h
  case h_6 | h_7 => split <;> exact ⟨_, _, rfl⟩
  all_goals exact ⟨_, _, rfl⟩

theorem execHeader_sync {b : Byte} {s t : State} (hs : s.frame.state = .idle) (h : exec (decodeHeader b) s = .next t) :
    syncOf t.frame = syncAfter b (syncOf s.frame) := by
  by_cases hevent : headerEvent b = 1
  · rw [decodeHeader_load hevent] at h
    cases h
    simp [syncOf, syncAfter, hs, hevent]
  · obtain ⟨e, n, hf⟩ := execHeader_records hevent h
    simp only [syncOf, syncAfter, hs, hf, if_neg hevent]

theorem payloadByte_sync {b : Byte} {s t : State} (hs : s.frame.state = .payload) (h : payloadByte b s = .next t) :
    syncOf t.frame = syncAfter b (syncOf s.frame) := by
  obtain ⟨u, rfl | hu, rfl⟩ := payloadByte_eq_countByte h
  · simp [syncOf, syncAfter, hs]
  · obtain ⟨hstate, hlen, hcount, -⟩ := acceptByte_frame hu
    simp [syncOf, syncAfter, hs, hstate, hlen, hcount]

/-- Whatever the receiver does with a byte, its synchronisation goes where `syncAfter` says. -/
theorem receiveByte_sync {b : Byte} {s t : State} (h : receiveByte b s = .next t) :
    syncOf t.frame = syncAfter b (syncOf s.frame) := by
  rcases receiveByte_cases b s with ⟨hs, hb⟩ | ⟨hs, hb⟩ | ⟨hs, hb⟩ | ⟨hs, hb⟩ | ⟨hs, hb⟩ <;> rw [hb] at h
  · exact execHeader_sync hs h
  · cases h; simp [syncOf, syncAfter, hs]
  · cases h; simp only [syncOf, syncAfter, hs]; rfl
  · exact payloadByte_sync hs h
  · cases h; simp [syncOf, syncAfter, hs, checkByte]

/-- In a state of the frame invariant every byte gets an answer (R82). -/
theorem exists_receiveByte {s : State} (b : Byte) (h : FrameInv s.frame) : ∃ t, receiveByte b s = .next t := by
  rcases receiveByte_cases b s with ⟨-, hb⟩ | ⟨-, hb⟩ | ⟨-, hb⟩ | ⟨hs, hb⟩ | ⟨-, hb⟩ <;> rw [hb]
  · obtain ⟨t, ht, -⟩ := execHeader_frame b s
    exact ⟨t, ht⟩
  · exact ⟨_, rfl⟩
  · exact ⟨_, rfl⟩
  · cases hacc : s.accept with
    | false => exact ⟨_, payloadByte_discarded b hacc⟩
    | true =>
      obtain ⟨-, hover⟩ : s.frame.matched = true ∧ s.frame.oversize = false := by simpa [State.accept] using hacc
      exact ⟨_, payloadByte_accepted hacc (tripleSlot_lt_maxNotes h hs hover)⟩
  · exact ⟨_, rfl⟩

theorem frameInv_receiveByte {b : Byte} {s t : State} (h : FrameInv s.frame) (ht : receiveByte b s = .next t) :
    FrameInv t.frame :=
  frameInv_receiverCycle (i := { rx := some b }) h ht

/-- A cycle with a byte moves the synchronisation by that byte, and keeps the frame invariant. -/
theorem step_sync {s t : State} {b : Byte} (h : Receives s b) (ht : step s = .next t) :
    syncOf t.frame = syncAfter b (syncOf s.frame) ∧ (FrameInv s.frame → FrameInv t.frame) := by
  obtain ⟨s₁, -, hframe, -, -, -, -, -, hstep⟩ := step_with_byte h
  rw [hstep] at ht
  obtain ⟨s₂, h₂, hend⟩ := andThen_eq_next.mp ht
  cases hend
  rw [endCycle_frame, ← hframe]
  exact ⟨receiveByte_sync h₂, fun hinv => frameInv_receiveByte hinv h₂⟩

/-! ## Where the receiver stands along a load frame -/

/-- The receiver has taken the header of `f` and waits for the bytes `bs`, the last ones of the frame (R92). -/
def Awaits (f : LoadFrame) (bs : List Byte) (y : BusSync) : Prop :=
  match y.state with
  | .idle => bs = []
  | .lenHi => y.count = 0 ∧ bs = highByte f.length16 :: lowByte f.length16 :: (f.payload ++ [f.check])
  | .lenLo => y.count = 0 ∧ highByte y.len = highByte f.length16 ∧ bs = lowByte f.length16 :: (f.payload ++ [f.check])
  | .payload => y.len = f.length16 ∧ y.count.toNat < f.payload.length ∧
      bs = f.payload.drop y.count.toNat ++ [f.check]
  | .check => y.len = f.length16 ∧ bs = [f.check]

/-- The length's low byte: a frame of length 0 has no payload to wait for (R124). -/
theorem awaits_afterLength {f : LoadFrame} (hf : f.payload.length < 65536) :
    Awaits f (f.payload ++ [f.check]) ⟨if f.length16 = 0 then .check else .payload, f.length16, 0⟩ := by
  have hzero : f.length16 = 0 ↔ f.payload.length = 0 := by
    rw [← BitVec.toNat_inj, length16_toNat hf]; rfl
  by_cases h : f.length16 = 0
  · have hnil : f.payload = [] := List.length_eq_zero_iff.mp (hzero.mp h)
    simp [Awaits, h, hnil]
  · have hpos : 0 < f.payload.length := Nat.pos_of_ne_zero fun hlen => h (hzero.mpr hlen)
    simp only [Awaits, if_neg h]
    exact ⟨trivial, hpos, rfl⟩

/-- A payload byte: the next one is awaited, or after the last the check byte (R126). -/
theorem awaits_afterPayloadByte {f : LoadFrame} {count : Half} (hf : f.payload.length < 65536)
    (hlt : count.toNat < f.payload.length) :
    Awaits f (f.payload.drop (count.toNat + 1) ++ [f.check])
      ⟨if count + 1 = f.length16 then .check else .payload, f.length16, count + 1⟩ := by
  have hsucc : (count + 1).toNat = count.toNat + 1 := by
    rw [BitVec.toNat_add]
    exact Nat.mod_eq_of_lt (show count.toNat + 1 < 65536 by omega)
  have hlast : count + 1 = f.length16 ↔ count.toNat + 1 = f.payload.length := by
    rw [← BitVec.toNat_inj, hsucc, length16_toNat hf]
  by_cases h : count + 1 = f.length16
  · simp only [Awaits, if_pos h]
    exact ⟨trivial, by rw [hlast.mp h, List.drop_length, List.nil_append]⟩
  · have hne : count.toNat + 1 ≠ f.payload.length := fun hlen => h (hlast.mpr hlen)
    simp only [Awaits, if_neg h, hsucc]
    exact ⟨trivial, by omega, trivial⟩

/-- The byte that the receiver awaits brings it on to the rest of the frame. -/
theorem Awaits.next {f : LoadFrame} {b : Byte} {bs : List Byte} {y : BusSync} (hf : f.payload.length < 65536)
    (h : Awaits f (b :: bs) y) : Awaits f bs (syncAfter b y) := by
  obtain ⟨state, len, count⟩ := y
  cases state with
  | idle => cases h
  | lenHi =>
    obtain ⟨hcount, hbs⟩ := h
    obtain ⟨rfl, rfl⟩ := List.cons.inj hbs
    exact ⟨hcount, highByte_bigEndian _ _, rfl⟩
  | lenLo =>
    obtain ⟨hcount, hhigh, hbs⟩ := h
    obtain ⟨rfl, rfl⟩ := List.cons.inj hbs
    obtain rfl : count = 0 := hcount
    have hL : bigEndian (highByte len) (lowByte f.length16) = f.length16 := by
      rw [show highByte len = _ from hhigh, bigEndian_bytes]
    simp only [syncAfter, hL]
    exact awaits_afterLength hf
  | payload =>
    obtain ⟨hlen, hlt, hbs⟩ := h
    obtain rfl : len = f.length16 := hlen
    rw [List.drop_eq_getElem_cons hlt, List.cons_append] at hbs
    obtain ⟨rfl, rfl⟩ := List.cons.inj hbs
    exact awaits_afterPayloadByte hf hlt
  | check =>
    obtain ⟨-, hbs⟩ := h
    obtain ⟨-, rfl⟩ := List.cons.inj hbs
    rfl

/-- Before its last byte the frame is not over. -/
theorem Awaits.boundary_iff {f : LoadFrame} {bs : List Byte} {y : BusSync} (h : Awaits f bs y) :
    y.state = .idle ↔ bs = [] := by
  obtain ⟨state, len, count⟩ := y
  cases state with
  | idle => exact iff_of_true rfl h
  | lenHi => obtain ⟨-, rfl⟩ := h; simp
  | lenLo => obtain ⟨-, -, rfl⟩ := h; simp
  | payload => obtain ⟨-, -, rfl⟩ := h; simp
  | check => obtain ⟨-, rfl⟩ := h; simp

/-- After the header fewer bytes are awaited than the frame has. -/
theorem Awaits.length_lt {f : LoadFrame} {bs : List Byte} {y : BusSync} (h : Awaits f bs y) :
    bs.length < f.bytes.length := by
  rw [loadFrame_bytes_length]
  obtain ⟨state, len, count⟩ := y
  cases state with
  | idle => obtain rfl : bs = [] := h; exact Nat.add_pos_left (by decide) _
  | lenHi => obtain ⟨-, rfl⟩ := h; simp only [List.length_cons, List.length_append, List.length_nil]; omega
  | lenLo => obtain ⟨-, -, rfl⟩ := h; simp only [List.length_cons, List.length_append, List.length_nil]; omega
  | payload =>
    obtain ⟨-, -, rfl⟩ := h
    simp only [List.length_append, List.length_drop, List.length_singleton]
    omega
  | check => obtain ⟨-, rfl⟩ := h; rw [List.length_singleton]; omega

/-- In `s` the receiver waits for the bytes `bs` of the frame `f`, all of them or those after its header. -/
def AwaitsFrame (f : LoadFrame) (bs : List Byte) (s : State) : Prop :=
  (bs = f.bytes ∧ FrameBoundary s) ∨ (FrameInv s.frame ∧ Awaits f bs (syncOf s.frame))

theorem AwaitsFrame.congr {f : LoadFrame} {bs : List Byte} {s t : State} (h : AwaitsFrame f bs s)
    (hst : SameReceiver s t) : AwaitsFrame f bs t := by
  rwa [AwaitsFrame, FrameBoundary, hst.frame]

/-- Every byte of a load frame gets an answer, and brings the receiver on by one byte (R131). -/
theorem AwaitsFrame.receiveByte_next {f : LoadFrame} {b : Byte} {bs : List Byte} {s : State}
    (hf : f.payload.length < 65536) (h : AwaitsFrame f (b :: bs) s) :
    ∃ t, receiveByte b s = .next t ∧ AwaitsFrame f bs t := by
  rcases h with ⟨hbs, hbound⟩ | ⟨hinv, hawaits⟩
  · obtain ⟨rfl, rfl⟩ := List.cons.inj hbs
    rw [receiveByte_idle _ hbound, decodeHeader_load (headerEvent_headerByte _ _)]
    exact ⟨_, rfl, .inr ⟨⟨rfl, rfl, rfl, rfl⟩, rfl, rfl⟩⟩
  · obtain ⟨t, ht⟩ := exists_receiveByte b hinv
    refine ⟨t, ht, .inr ⟨frameInv_receiveByte hinv ht, ?_⟩⟩
    rw [receiveByte_sync ht]
    exact hawaits.next hf

theorem AwaitsFrame.boundary_iff {f : LoadFrame} {bs : List Byte} {s : State} (h : AwaitsFrame f bs s) :
    FrameBoundary s ↔ bs.length = f.bytes.length ∨ bs.length = 0 := by
  rcases h with ⟨rfl, hbound⟩ | ⟨-, hawaits⟩
  · exact iff_of_true hbound (.inl rfl)
  · have hlt := hawaits.length_lt
    rw [show FrameBoundary s ↔ bs = [] from hawaits.boundary_iff, ← List.length_eq_zero_iff]
    omega

theorem AwaitsFrame.frameInv {f : LoadFrame} {s : State} (h : AwaitsFrame f [] s) : FrameInv s.frame := by
  rcases h with ⟨hbs, -⟩ | ⟨hinv, -⟩
  · cases hbs
  · exact hinv

end Sys2Proof.Machine

namespace Sys2Proof.Claims

open Sys2Proof.Machine Sys2Proof.Safety

/-- Settles O28: `syncAfter` reads the three registers and the byte, nothing else. -/
theorem byteSyncIsTheSameOnEveryNode : Obligations.ByteSyncIsTheSameOnEveryNode := by
  intro s s' t t' ha ha' hrx hstate hlen hcount ht ht'
  have hsync : syncOf s.frame = syncOf s'.frame := by simp only [syncOf, hstate, hlen, hcount]
  have hsync' : syncOf t.frame = syncOf t'.frame := by
    cases hb : s.currentInput.rx with
    | none =>
      obtain ⟨u, hu, hsame⟩ := step_sameReceiver ⟨ha, hb⟩
      obtain ⟨u', hu', hsame'⟩ := step_sameReceiver ⟨ha', hrx ▸ hb⟩
      rw [ht] at hu; cases hu
      rw [ht'] at hu'; cases hu'
      rw [hsame.frame, hsame'.frame, hsync]
    | some b =>
      rw [(step_sync ⟨ha, hb⟩ ht).1, (step_sync ⟨ha', hrx ▸ hb⟩ ht').1, hsync]
  exact BusSync.mk.inj hsync'

/-- Settles O25: along the run the receiver waits for the bytes that are still to come, and it stands at a frame
boundary exactly where these are all of them or none. -/
theorem loadFrameKeepsByteSync : Obligations.LoadFrameKeepsByteSync := by
  intro f s ins k hf hbound hr hd
  have hsplit : bytesOf (ins.take k) ++ bytesOf (ins.drop k) = f.bytes := by
    rw [← bytesOf_append, List.take_append_drop, hd]
  have hlength : (bytesOf (ins.take k)).length + (bytesOf (ins.drop k)).length = 4 + f.payload.length := by
    rw [← List.length_append, hsplit, loadFrame_bytes_length]
  obtain ⟨t, ht, hawaits⟩ := runsTo_of_receiveByte (Q := AwaitsFrame f) AwaitsFrame.congr
    (AwaitsFrame.receiveByte_next (of_decide_eq_true hf)) (fun i hi => hr i (List.mem_of_mem_take hi))
    (.inl ⟨hsplit, hbound⟩)
  refine ⟨t, ht, ?_, fun hall => ?_⟩
  · rw [hawaits.boundary_iff, loadFrame_bytes_length]
    omega
  · have hnil : bytesOf (ins.drop k) = [] := List.length_eq_zero_iff.mp (by omega)
    rw [hnil] at hawaits
    exact hawaits.frameInv

end Sys2Proof.Claims
end

section
/-! Frames that write nothing but the Inbound Frame (41_frame_receiver.md R125, R130): a run that receives one, beside
the same cycles without its bytes, and from that the outcome of every load frame. -/

/-! ## No other agent reads the Inbound Frame -/

namespace Sys2Proof.Machine

open Sys2Proof.Safety

/-- `s` with an Inbound Frame in the place of its own. -/
def withFrame (s : State) (r : InboundFrame) : State := { s with frame := r }

theorem notify_withFrame (s : State) (r : InboundFrame) (v : Byte) :
    (withFrame s r).notify v = withFrame (s.notify v) r := by
  unfold State.notify
  rw [apply_ite (withFrame · r)]
  rfl

/-- No note reads or writes the Inbound Frame (R197). -/
theorem execNote_withFrame (w : BitVec 24) (s : State) (r : InboundFrame) :
    exec (decodeNote w) (withFrame s r) = andThen (exec (decodeNote w) s) (fun t => .next (withFrame t r)) := by
  rcases decodeNote_cases w with ⟨-, hw⟩ | ⟨-, -, hw⟩ | ⟨-, hw⟩ | ⟨-, hw⟩ | ⟨-, hw⟩ <;>
    simp only [hw, exec, execTone, execRsvp, execSync, execEndSong, execRest, andThen_next]
  · exact congrArg _ (by rw [apply_ite (withFrame · r)]; rfl)
  · rfl
  · rw [notify_withFrame]; rfl
  · exact congrArg _ (notify_withFrame (s.setPos 0).clearPlaying r respSongEnded)
  · exact congrArg _ (by rw [apply_ite (withFrame · r)]; rfl)

/-- The sequencer neither reads nor writes the Inbound Frame (R197). -/
theorem sequencerCycle_withFrame (s : State) (r : InboundFrame) :
    sequencerCycle (withFrame s r) = andThen (sequencerCycle s) (fun t => .next (withFrame t r)) := by
  have hen : (withFrame s r).playbackEnabled = s.playbackEnabled := rfl
  have hfetch : (withFrame s r).fetchNote = s.fetchNote := rfl
  unfold sequencerCycle
  rw [show (withFrame s r).seq.state = s.seq.state from rfl]
  cases s.seq.state with
  | idle =>
    simp only [hen]
    cases s.playbackEnabled with
    | false => rfl
    | true =>
      simp only [if_true, dispatchEntry, hfetch]
      cases s.fetchNote with
      | overrun => rfl
      | unwritten => rfl
      | entry e => exact execNote_withFrame _ s r
  | tone =>
    simp only [andThen_next]
    exact congrArg _ (by unfold toneCycle; rw [apply_ite (withFrame · r)]; rfl)
  | rest =>
    simp only [andThen_next]
    exact congrArg _ (by unfold restCycle; rw [apply_ite (withFrame · r)]; rfl)
  | fault => rfl

theorem beginCycle_withFrame (i : CycleInput) (s : State) (r : InboundFrame) :
    beginCycle i (withFrame s r) = withFrame (beginCycle i s) r := by
  unfold beginCycle transmitCycle
  rw [apply_ite (withFrame · r), apply_ite (withFrame · r)]
  rfl

/-- A cycle with no byte does the same whatever the Inbound Frame is, and leaves it. -/
theorem step_withFrame {s t : State} (h : ReceivesNothing s) (ht : step s = .next t) (r : InboundFrame) :
    step (withFrame s r) = .next (withFrame t r) := by
  rw [step_without_byte h] at ht
  obtain ⟨s₁, h₁, hend⟩ := andThen_eq_next.mp ht
  cases hend
  rw [step_without_byte (s := withFrame s r) h]
  have htake : (withFrame s r).takeInput = withFrame s.takeInput r := rfl
  have hinput : (withFrame s r).currentInput = s.currentInput := rfl
  rw [htake, hinput, beginCycle_withFrame, sequencerCycle_withFrame, h₁]
  rfl

/-! ## Runs whose bytes reach only the Inbound Frame -/

theorem runsTo_singleton {s t : State} {i : CycleInput} : RunsTo s [i] t ↔ step (withInputs s [i]) = .next t := by
  rw [runsTo_cons]
  simp only [runsTo_nil]
  constructor
  · rintro ⟨u, hu, rfl⟩
    have hnone : u.inputs = [] := step_inputs hu
    rw [hu, show withInputs u [] = u by rw [withInputs, ← hnone]]
  · intro ht
    have hnone : t.inputs = [] := step_inputs ht
    exact ⟨t, ht, by rw [withInputs, ← hnone]⟩

/-- From `s` the cycles `ins` run to `t`, and their bytes reach nothing but the Inbound Frame: the same cycles without
them end in the same state, the Inbound Frame aside, whatever that was. -/
structure FrameOnlyRun (s : State) (ins : List CycleInput) (t : State) : Prop where
  run : RunsTo s ins t
  without : ∀ r, RunsTo (withFrame s r) (withoutBytes ins) (withFrame t r)

theorem FrameOnlyRun.append {s t u : State} {ins more : List CycleInput} (h : FrameOnlyRun s ins t)
    (h' : FrameOnlyRun t more u) : FrameOnlyRun s (ins ++ more) u where
  run := runsTo_append.mpr ⟨t, h.run, h'.run⟩
  without r := by
    rw [withoutBytes, List.map_append]
    exact runsTo_append.mpr ⟨_, h.without r, h'.without r⟩

/-- Where no byte reaches more than the Inbound Frame, the Song Buffer and `dataReady` stay. -/
theorem FrameOnlyRun.sb_dataReady {s t : State} {ins : List CycleInput} (h : FrameOnlyRun s ins t) (hr : NoReset ins) :
    t.sb = s.sb ∧ t.flags.dataReady = s.flags.dataReady := by
  have hr' : NoReset (withoutBytes ins) := List.forall_mem_map.mpr hr
  have hn : bytesOf (withoutBytes ins) = [] := by simp [bytesOf, withoutBytes]
  obtain ⟨-, hsb, hready⟩ := sameReceiver_of_runsTo (h.without s.frame) hr' hn
  exact ⟨hsb, hready⟩

theorem frameOnlyRun_noByte {s : State} {i : CycleInput} (hrst : i.rst = false) (hrx : i.rx = none) :
    ∃ t, FrameOnlyRun s [i] t ∧ t.frame = s.frame := by
  have hquiet : ReceivesNothing (withInputs s [i]) := ⟨hrst, hrx⟩
  obtain ⟨t, ht, hsame⟩ := step_sameReceiver hquiet
  have hi : withoutBytes [i] = [i] := by obtain ⟨rst, nv, rx, td, bi, bd⟩ := i; obtain rfl : rx = none := hrx; rfl
  refine ⟨t, ⟨runsTo_singleton.mpr ht, fun r => ?_⟩, hsame.frame⟩
  rw [hi]
  exact runsTo_singleton.mpr (step_withFrame hquiet ht r)

theorem frameOnlyRun_byte {s : State} {i : CycleInput} {g : InboundFrame} (hrst : i.rst = false)
    (h : ByteEffect (withInputs s [i]) (withFrame · g)) : ∃ t, FrameOnlyRun s [i] t ∧ t.frame = g := by
  obtain ⟨u, hu, ht⟩ := h
  have hquiet : ReceivesNothing (withoutByte (withInputs s [i])) := ⟨hrst, rfl⟩
  exact ⟨withFrame u g, ⟨runsTo_singleton.mpr ht, fun r => runsTo_singleton.mpr (step_withFrame hquiet hu r)⟩, rfl⟩

/-- A run over any spacing of bytes each of which reaches only the Inbound Frame. `Q bs r` says of the Inbound Frame `r`
that it waits for the bytes `bs`. -/
theorem exists_frameOnlyRun {Q : List Byte → InboundFrame → Prop}
    (hbyte : ∀ {b bs s}, Receives s b → Q (b :: bs) s.frame → ∃ g, ByteEffect s (withFrame · g) ∧ Q bs g)
    {ins : List CycleInput} {rest : List Byte} {s : State} (hr : NoReset ins) (h : Q (bytesOf ins ++ rest) s.frame) :
    ∃ t, FrameOnlyRun s ins t ∧ Q rest t.frame := by
  induction ins generalizing s with
  | nil => exact ⟨withInputs s [], ⟨runsTo_nil.mpr rfl, fun _ => runsTo_nil.mpr rfl⟩, h⟩
  | cons i ins ih =>
    obtain ⟨hrst, hr⟩ := List.forall_mem_cons.mp hr
    have hcycle : ∃ u, FrameOnlyRun s [i] u ∧ Q (bytesOf ins ++ rest) u.frame := by
      cases hrx : i.rx with
      | none =>
        rw [bytesOf_cons_none hrx] at h
        obtain ⟨u, hu, hframe⟩ := frameOnlyRun_noByte (s := s) hrst hrx
        exact ⟨u, hu, by rwa [hframe]⟩
      | some b =>
        rw [bytesOf_cons_some hrx] at h
        obtain ⟨g, heffect, hQ⟩ := hbyte (s := withInputs s [i]) ⟨hrst, hrx⟩ h
        obtain ⟨u, hu, hframe⟩ := frameOnlyRun_byte hrst heffect
        exact ⟨u, hu, by rwa [hframe]⟩
    obtain ⟨u, hu, hQ⟩ := hcycle
    obtain ⟨t, ht, hQt⟩ := ih hr hQ
    exact ⟨t, hu.append ht, hQt⟩

/-! ## Frames that are not accepted -/

/-- The receiver waits for the bytes `bs` of a frame `f` that it does not accept, and then for its check byte: the frame
is for another node or has no room (R125). `m` is the target comparison. -/
structure DiscardsFrame (f : LoadFrame) (m : Bool) (bs : List Byte) (r : InboundFrame) : Prop where
  inv : FrameInv r
  awaits : Awaits f (bs ++ [f.check]) (syncOf r)
  matched : r.matched = m
  refused : m = false ∨ oversizeLength f.length16 = true

/-- A byte of such a frame before the check byte reaches only the Inbound Frame, and leaves the target comparison. -/
theorem DiscardsFrame.byteEffect {f : LoadFrame} {m : Bool} {b : Byte} {bs : List Byte} {s : State} (h : Receives s b)
    (hd : DiscardsFrame f m (b :: bs) s.frame) :
    ∃ g, ByteEffect s (withFrame · g) ∧ g.matched = s.frame.matched := by
  obtain ⟨hinv, hawaits, hmatched, hrefused⟩ := hd
  obtain ⟨hlenHi, hlenLo, -⟩ := Claims.lengthBytesAreAssembled s b h
  cases hs : s.frame.state with
  | idle => simp [Awaits, syncOf, hs] at hawaits
  | lenHi => exact ⟨_, hlenHi hs, rfl⟩
  | lenLo => exact ⟨_, hlenLo hs _ rfl, rfl⟩
  | payload =>
    have hnot : s.frame.matched = false ∨ s.frame.oversize = true := by
      simp only [FrameInv, hs] at hinv
      simp only [Awaits, syncOf, hs] at hawaits
      rwa [hmatched, hinv.2, hawaits.1]
    exact ⟨_, Claims.discardedPayloadByteIsCounted s b h hs hnot, rfl⟩
  | check => simp [Awaits, syncOf, hs] at hawaits

theorem DiscardsFrame.next {f : LoadFrame} {m : Bool} {b : Byte} {bs : List Byte} {s : State}
    (hf : f.payload.length < 65536) (h : Receives s b) (hd : DiscardsFrame f m (b :: bs) s.frame) :
    ∃ g, ByteEffect s (withFrame · g) ∧ DiscardsFrame f m bs g := by
  obtain ⟨g, heffect, hmatched⟩ := hd.byteEffect h
  obtain ⟨u, -, -, hstep⟩ := step_of_byteEffect h heffect
  obtain ⟨hsync, hinv⟩ := step_sync h hstep
  refine ⟨g, heffect, hinv hd.inv, ?_, hmatched.trans hd.matched, hd.refused⟩
  rw [show syncOf g = _ from hsync]
  exact hd.awaits.next hf

/-- Only the check byte is awaited: the receiver stands in `CHECK`, with the oversize bit of the frame's length. -/
theorem DiscardsFrame.check {f : LoadFrame} {m : Bool} {r : InboundFrame} (hd : DiscardsFrame f m [] r) :
    r.state = .check ∧ r.oversize = oversizeLength f.length16 := by
  obtain ⟨hinv, hawaits, -, -⟩ := hd
  cases hs : r.state with
  | idle | lenHi | lenLo => simp [Awaits, syncOf, hs] at hawaits
  | payload =>
    simp only [Awaits, syncOf, hs] at hawaits
    obtain ⟨-, hlt, hbs⟩ := hawaits
    have hlength := congrArg List.length hbs
    simp only [List.nil_append, List.length_append, List.length_drop, List.length_singleton] at hlength
    omega
  | check =>
    simp only [FrameInv, hs] at hinv
    simp only [Awaits, syncOf, hs] at hawaits
    exact ⟨rfl, by rw [hinv.2, hawaits.1]⟩

/-! ## The header and the check byte of such frames -/

/-- The header of `f` opens a frame that the receiver will not accept, if it is for another node or has no room. -/
theorem discardsFrame_opened {f : LoadFrame} {r : InboundFrame} {m : Bool} (hstate : r.state = .lenHi)
    (hzero : r.len = 0 ∧ r.count = 0 ∧ r.csum = 0 ∧ r.oversize = false) (hmatched : r.matched = m)
    (hrefused : m = false ∨ oversizeLength f.length16 = true) :
    DiscardsFrame f m (highByte f.length16 :: lowByte f.length16 :: f.payload) r where
  inv := by simpa only [FrameInv, hstate] using hzero
  awaits := by simp [Awaits, syncOf, hstate, hzero]
  matched := hmatched
  refused := hrefused

/-- The header of a frame for another node reaches only the Inbound Frame (R122). -/
theorem byteEffect_foreignLoad {f : LoadFrame} {s : State} (h : Receives s (headerByte 0x1 f.target))
    (hb : FrameBoundary s) (htarget : f.target ≠ s.nodeid) :
    ∃ g, ByteEffect s (withFrame · g) ∧
      DiscardsFrame f false (highByte f.length16 :: lowByte f.length16 :: f.payload) g := by
  have heffect := Claims.loadHeaderOpensAFrame s _ h hb (headerEvent_headerByte _ _)
  obtain ⟨u, hu, hsame, hstep⟩ := step_of_byteEffect h heffect
  rw [headerParam_headerByte, if_neg htarget, ← hsame.dataReady] at hstep
  exact ⟨_, ⟨u, hu, hstep⟩,
    discardsFrame_opened rfl ⟨rfl, rfl, rfl, rfl⟩ (decide_eq_false htarget) (.inl rfl)⟩

/-- The header of an oversize frame for this node clears `dataReady` and leaves the Song Buffer (R122). -/
theorem step_oversizeLoad {f : LoadFrame} {s : State} (h : Receives s (headerByte 0x1 f.target))
    (hb : FrameBoundary s) (htarget : f.target = s.nodeid) (hover : oversizeLength f.length16 = true) :
    ∃ t, step s = .next t ∧ t.sb = s.sb ∧ t.flags.dataReady = false ∧
      DiscardsFrame f true (highByte f.length16 :: lowByte f.length16 :: f.payload) t.frame := by
  have heffect := Claims.loadHeaderOpensAFrame s _ h hb (headerEvent_headerByte _ _)
  obtain ⟨u, -, hsame, hstep⟩ := step_of_byteEffect h heffect
  rw [headerParam_headerByte, if_pos htarget] at hstep
  exact ⟨_, hstep, hsame.sb, rfl,
    discardsFrame_opened rfl ⟨rfl, rfl, rfl, rfl⟩ (decide_eq_true htarget) (.inr hover)⟩

/-- The check byte of an oversize frame for this node queues 0xF1, whatever it is (R127). -/
theorem step_oversizeCheck {f : LoadFrame} {s : State} {b : Byte} (h : Receives s b)
    (hd : DiscardsFrame f true [] s.frame) :
    ∃ t, step s = .next t ∧ t.sb = s.sb ∧ t.flags.dataReady = s.flags.dataReady ∧ t.flags.sendResponse = true ∧
      t.flags.responseData = 0xF1 := by
  obtain ⟨hstate, hover⟩ := hd.check
  obtain ⟨-, heffect, -, -⟩ := Claims.checkByteDecidesTheFrame s b h hstate
  have hfits : oversizeLength f.length16 = true := by simpa using hd.refused
  obtain ⟨u, -, hsame, hstep⟩ := step_of_byteEffect h (heffect hd.matched (hover.trans hfits))
  exact ⟨_, hstep, hsame.sb, hsame.dataReady, rfl, rfl⟩

/-! ## Whole frames -/

theorem oversizeLength_length16 {f : LoadFrame} (hf : f.payload.length < 65536) :
    oversizeLength f.length16 = true ↔ Config.maxNotes < f.payload.length / 3 := by
  rw [oversizeLength, length16_toNat hf, decide_eq_true_iff]

section WholeFrame

variable {f : LoadFrame} {u : State} {first last : CycleInput} {mid : List CycleInput}
  (hf : f.payload.length < 65536) (hb : FrameBoundary u)
  (hr : first.rst = false ∧ NoReset mid ∧ last.rst = false)
  (hfirst : first.rx = some (headerByte 0x1 f.target))
  (hmid : Delivers mid (highByte f.length16 :: lowByte f.length16 :: f.payload))
  (hlast : last.rx = some f.check)
include hf hb hr hfirst hmid hlast

/-- Not a byte of a frame for another node reaches more than the Inbound Frame (R130). -/
theorem exists_foreignFrameRun (htarget : f.target ≠ u.nodeid) :
    ∃ t, FrameOnlyRun u (first :: (mid ++ [last])) t := by
  obtain ⟨hrfirst, hrmid, hrlast⟩ := hr
  obtain ⟨g, hheader, hg⟩ := byteEffect_foreignLoad (s := withInputs u [first]) ⟨hrfirst, hfirst⟩ hb htarget
  obtain ⟨v, hv, hvframe⟩ := frameOnlyRun_byte hrfirst hheader
  obtain ⟨w, hw, hwait⟩ := exists_frameOnlyRun (s := v) (rest := []) (DiscardsFrame.next hf) hrmid
    (by rw [hmid, List.append_nil, hvframe]; exact hg)
  obtain ⟨hcheck, -⟩ := Claims.checkByteDecidesTheFrame (withInputs w [last]) f.check ⟨hrlast, hlast⟩ hwait.check.1
  obtain ⟨t, ht, -⟩ := frameOnlyRun_byte hrlast (hcheck hwait.matched)
  exact ⟨t, hv.append (hw.append ht)⟩

/-- An oversize frame for this node writes no entry and leaves 0xF1 (R130). -/
theorem runsTo_oversizeFrame (htarget : f.target = u.nodeid) (hover : oversizeLength f.length16 = true) :
    ∃ t, RunsTo u (first :: (mid ++ [last])) t ∧ t.sb = u.sb ∧ t.flags.dataReady = false ∧
      t.flags.sendResponse = true ∧ t.flags.responseData = 0xF1 := by
  obtain ⟨hrfirst, hrmid, hrlast⟩ := hr
  obtain ⟨v, hv, hvsb, hvready, hwait⟩ := step_oversizeLoad (s := withInputs u [first]) ⟨hrfirst, hfirst⟩ hb htarget
    hover
  obtain ⟨w, hw, hwait⟩ := exists_frameOnlyRun (s := v) (rest := []) (DiscardsFrame.next hf) hrmid
    (by rw [hmid, List.append_nil]; exact hwait)
  obtain ⟨hwsb, hwready⟩ := hw.sb_dataReady hrmid
  obtain ⟨t, ht, htsb, htready, hresponse⟩ := step_oversizeCheck (s := withInputs w [last]) ⟨hrlast, hlast⟩ hwait
  refine ⟨t, ?_, htsb.trans (hwsb.trans hvsb), htready.trans (hwready.trans hvready), hresponse⟩
  exact runsTo_append (ins := [first]).mpr ⟨v, runsTo_singleton.mpr hv,
    runsTo_append.mpr ⟨w, hw.run, runsTo_singleton.mpr ht⟩⟩

end WholeFrame

end Sys2Proof.Machine

namespace Sys2Proof.Claims

open Sys2Proof.Machine Sys2Proof.Safety

/-- Settles O26, row by row of R130: the cycles before the header leave the receiver, and then the frame is discarded
for its target, discarded for its length, or accepted. -/
theorem loadFrameOutcome : Obligations.LoadFrameOutcome := by
  intro f s ins hwf hb hr hd he
  have hf : f.payload.length < 65536 := of_decide_eq_true hwf
  obtain ⟨first, mid, last, hins, hfirst, hmid, hlast⟩ := eq_first_mid_last
    (bs := highByte f.length16 :: lowByte f.length16 :: f.payload) hd he
  obtain ⟨hrbefore, hrframe⟩ : NoReset (beforeFirstByte ins) ∧ first.rst = false ∧ NoReset mid ∧ last.rst = false := by
    rw [hins] at hr
    simpa [NoReset, or_imp, forall_and] using hr
  obtain ⟨u, hu, -, hframe⟩ := exists_frameOnlyRun (Q := fun bs r => bs = [] ∧ r = s.frame) (rest := [])
    (fun _ hQ => absurd hQ.1 (List.cons_ne_nil _ _)) hrbefore ⟨by rw [bytesOf_beforeFirstByte]; rfl, rfl⟩
  obtain ⟨husb, -⟩ := hu.sb_dataReady hrbefore
  have hub : FrameBoundary u := by rw [FrameBoundary, hframe, hb]
  by_cases htarget : f.target = u.nodeid
  · by_cases hover : Config.maxNotes < f.payload.length / 3
    · obtain ⟨t, ht, hsb, hrest⟩ := runsTo_oversizeFrame hf hub hrframe hfirst hmid hlast htarget
        ((oversizeLength_length16 hf).mpr hover)
      refine ⟨u, t, hu.run, by rw [hins]; exact runsTo_append.mpr ⟨u, hu.run, ht⟩, fun h => absurd htarget h,
        fun _ _ => ⟨hsb.trans husb, hrest⟩, fun _ h => absurd hover h.not_gt, fun _ h => absurd hover h.not_gt⟩
    · obtain ⟨t, ht, hreads, hready, hsend, hresponse⟩ :=
        runsTo_acceptedFrame (not_lt.mp hover) hb hr hu.run htarget hd he
      refine ⟨u, t, hu.run, ht, fun h => absurd htarget h, fun _ h => absurd h hover, fun _ _ hcheck => ?_,
        fun _ _ hcheck => ?_⟩
      · rw [if_pos hcheck] at hresponse
        exact ⟨hreads, hready.trans (decide_eq_true hcheck), hsend, hresponse⟩
      · rw [if_neg hcheck] at hresponse
        exact ⟨hreads, hready.trans (decide_eq_false hcheck), hsend, hresponse⟩
  · obtain ⟨t, ht⟩ := exists_foreignFrameRun hf hub hrframe hfirst hmid hlast htarget
    have hall : FrameOnlyRun s ins t := by rw [hins]; exact hu.append ht
    obtain ⟨hsb, hready⟩ := hall.sb_dataReady hr
    exact ⟨u, t, hu.run, hall.run, fun _ => ⟨hsb, hready, hall.without s.frame⟩, fun h => absurd h htarget,
      fun h => absurd h htarget, fun h => absurd h htarget⟩

end Sys2Proof.Claims
end

section
/-! The command dispatcher (42_command_dispatch.md): what a header of any event but 1 does to the state, and which parts of
a cycle queue a response (R167). -/

/-! ## The meaning of each dispatched header -/

namespace Sys2Proof.Machine

open Sys2Proof.Claims

theorem onlyRecords_of_exec {i : Instr} {event param : Nibble} (hw : i.wellFormed = true)
    (hencode : encode i = .hdr (headerByte event param)) (hexec : ∀ s, exec i s = .next (s.noteHeader event param)) :
    OnlyRecords i event param :=
  ⟨hencode ▸ decode_encode hw, hexec⟩

theorem exec_startn (n : Nibble) (s : State) :
    exec (.startn n) s =
      .next (if n = s.nodeid then (s.noteHeader 0x5 n).startPlayback else s.noteHeader 0x5 n) := by
  simp [exec, execStartn, addressed_eq_decide]

theorem exec_stopn (n : Nibble) (s : State) :
    exec (.stopn n) s =
      .next (if n = s.nodeid then (s.noteHeader 0x6 n).stopPlayback else s.noteHeader 0x6 n) := by
  simp [exec, execStopn, addressed_eq_decide]

theorem decodeHeader_start {b : Byte} (h : headerEvent b = 3) : decodeHeader b = .start (headerParam b) := by
  rw [decodeHeader, h]; rfl

theorem decodeHeader_stop {b : Byte} (h : headerEvent b = 4) : decodeHeader b = .stop (headerParam b) := by
  rw [decodeHeader, h]; rfl

theorem decodeHeader_startn {b : Byte} (h : headerEvent b = 5) : decodeHeader b = .startn (headerParam b) := by
  rw [decodeHeader, h]; rfl

theorem decodeHeader_stopn {b : Byte} (h : headerEvent b = 6) : decodeHeader b = .stopn (headerParam b) := by
  rw [decodeHeader, h]; rfl

theorem decodeHeader_syncack {b : Byte} (h : headerEvent b = 8) : decodeHeader b = .syncack (headerParam b) := by
  rw [decodeHeader, h]; rfl

/-! ## What the dispatcher can do to playback -/

/-- The effects that a dispatcher rule has on playback once its header is recorded (R151 to R165). -/
def PlaybackEffect (f : State → State) : Prop :=
  f = id ∨ f = State.startPlayback ∨ f = State.stopPlayback ∨ f = fun s => s.setWaiting false

/-- A playback effect writes the cursor and the two playback flags at most. -/
theorem PlaybackEffect.frame {f : State → State} (h : PlaybackEffect f) (s : State) :
    (f s).frame = s.frame ∧ (f s).sb = s.sb ∧ (f s).nodeid = s.nodeid ∧
      (f s).flags.dataReady = s.flags.dataReady ∧ (f s).flags.sendResponse = s.flags.sendResponse ∧
      (f s).flags.responseData = s.flags.responseData ∧ (f s).flags.uartBusy = s.flags.uartBusy ∧
      (f s).timer = s.timer ∧ (f s).faults = s.faults ∧ (f s).seq.state = s.seq.state ∧
      (f s).seq.wait = s.seq.wait := by
  rcases h with rfl | rfl | rfl | rfl <;> simp

/-- A header recorded and obeyed twice is as recorded and obeyed once: every write is of a constant. -/
theorem PlaybackEffect.noteHeader_twice {f : State → State} (h : PlaybackEffect f) (s : State) (event param : Nibble) :
    f ((f (s.noteHeader event param)).noteHeader event param) = f (s.noteHeader event param) := by
  rcases h with rfl | rfl | rfl | rfl <;> rfl

/-- Every header of an event other than 1 is recorded and then has one playback effect, which only the node ID selects:
the unicast commands compare it with their target, no other rule reads the state. -/
theorem exists_playbackEffect {b : Byte} (h : headerEvent b ≠ 1) (node : Nibble) :
    ∃ f, PlaybackEffect f ∧ ∀ s : State, s.nodeid = node →
      exec (decodeHeader b) s = .next (f (s.noteHeader (headerEvent b) (headerParam b))) := by
  have hevents : ∀ e : Nibble, e ≠ 1 →
      e ∈ [0x0, 0x2, 0x7, 0x9, 0xA, 0xB, 0xC, 0xD, 0xE, 0xF] ∨ e = 3 ∨ e = 4 ∨ e = 5 ∨ e = 6 ∨ e = 8 := by decide
  rcases hevents _ h with hi | he | he | he | he | he
  · exact ⟨id, .inl rfl, fun s _ => exec_ignoredHeader hi s⟩
  · rw [decodeHeader_start he, he]
    exact ⟨State.startPlayback, .inr (.inl rfl), fun _ _ => rfl⟩
  · rw [decodeHeader_stop he, he]
    exact ⟨State.stopPlayback, .inr (.inr (.inl rfl)), fun _ _ => rfl⟩
  · rw [decodeHeader_startn he, he]
    by_cases htarget : headerParam b = node
    · exact ⟨State.startPlayback, .inr (.inl rfl), fun s hs => by rw [exec_startn, if_pos (htarget.trans hs.symm)]⟩
    · exact ⟨id, .inl rfl, fun s hs => by rw [exec_startn, if_neg (hs ▸ htarget)]; rfl⟩
  · rw [decodeHeader_stopn he, he]
    by_cases htarget : headerParam b = node
    · exact ⟨State.stopPlayback, .inr (.inr (.inl rfl)), fun s hs => by
        rw [exec_stopn, if_pos (htarget.trans hs.symm)]⟩
    · exact ⟨id, .inl rfl, fun s hs => by rw [exec_stopn, if_neg (hs ▸ htarget)]; rfl⟩
  · rw [decodeHeader_syncack he, he]
    exact ⟨fun s => s.setWaiting false, .inr (.inr (.inr rfl)), fun _ _ => rfl⟩

/-! ## Who queues a response (R225) -/

/-- The response slot, the pending bit and its byte, is the same in both states (R33, R34). -/
def SameResponse (s t : State) : Prop :=
  t.flags.sendResponse = s.flags.sendResponse ∧ t.flags.responseData = s.flags.responseData

theorem SameResponse.of_flags_eq {s t : State} (h : t.flags = s.flags) : SameResponse s t := by
  rw [SameResponse, h]
  exact ⟨rfl, rfl⟩

theorem SameResponse.trans {s t u : State} (h : SameResponse s t) (h' : SameResponse t u) : SameResponse s u :=
  ⟨h'.1.trans h.1, h'.2.trans h.2⟩

/-- Where nothing is queued the transmitter alone acts on the slot: it drains the byte unless it is busy (R226). -/
theorem SameResponse.after_beginCycle {i : CycleInput} {s t : State} (h : SameResponse (beginCycle i s) t) :
    t.flags.sendResponse = (s.flags.sendResponse && s.flags.uartBusy) ∧
      t.flags.responseData = s.flags.responseData := by
  obtain ⟨hsend, hdata⟩ := h
  refine ⟨?_, by simpa using hdata⟩
  rw [hsend]
  simp [State.drains, Bool.and_or_distrib_left]

/-- Of the note codes only END and SYNC touch the response slot, and they do so on the coordinator (R186, R187, R198). -/
theorem execNote_response {w : BitVec 24} {s t : State} (h : exec (decodeNote w) s = .next t) :
    SameResponse s t ∨ ((notePitch w = 254 ∨ notePitch w = 253) ∧ s.isCoordinator = true) := by
  rcases decodeNote_cases w with ⟨-, hw⟩ | ⟨-, -, hw⟩ | ⟨hp, hw⟩ | ⟨hp, hw⟩ | ⟨-, hw⟩ <;> rw [hw] at h <;> cases h
  · exact .inl (.of_flags_eq (by split <;> rfl))
  · exact .inl (.of_flags_eq rfl)
  · rcases notify_cases s respSyncWait with ⟨hc, -⟩ | ⟨-, hn⟩
    · exact .inr ⟨.inr hp, hc⟩
    · rw [hn]
      exact .inl ⟨rfl, rfl⟩
  · rcases notify_cases (s.setPos 0).clearPlaying respSongEnded with ⟨hc, -⟩ | ⟨-, hn⟩
    · exact .inr ⟨.inl hp, hc⟩
    · rw [hn]
      exact .inl ⟨rfl, rfl⟩
  · exact .inl (.of_flags_eq (by split <;> rfl))

/-- The sequencer queues a response only by dispatching an END or a SYNC on the coordinator. -/
theorem sequencerCycle_response {s t : State} (h : sequencerCycle s = .next t) :
    SameResponse s t ∨ ∃ e, s.seq.state = .idle ∧ s.playbackEnabled = true ∧ s.fetchNote = .entry e ∧
      (e.pitch = 254 ∨ e.pitch = 253) ∧ s.isCoordinator = true := by
  rcases sequencerCycle_cases s with ⟨-, -, hc⟩ | ⟨-, -, -, hc⟩ | ⟨-, -, -, hc⟩ | ⟨e, hs, hen, hfetch, hc⟩ | ⟨-, hc⟩ |
    ⟨-, hc⟩ | ⟨-, hc⟩ <;> rw [hc] at h
  case inr.inr.inr.inl =>
    refine (execNote_response h).imp_right fun ⟨hp, hcoord⟩ => ⟨e, hs, hen, hfetch, ?_, hcoord⟩
    rwa [noteEntry_bits_pitch] at hp
  all_goals
    cases h
    exact .inl (.of_flags_eq (by simp))

/-- The verdict on a frame queues a response only where the frame is addressed to this node (R127). -/
theorem judgeFrame_response (b : Byte) (s : State) : SameResponse s (judgeFrame b s) ∨ s.frame.matched = true := by
  cases hmatch : s.frame.matched with
  | false => exact .inl (.of_flags_eq (by rw [judgeFrame_unmatched b hmatch]))
  | true => exact .inr rfl

/-- Of all bytes only the check byte of a frame for this node queues a response: a header does not, whatever its event
(R167), nor does a length or payload byte. -/
theorem receiverCycle_response {i : CycleInput} {s t : State} (h : receiverCycle i s = .next t) :
    SameResponse s t ∨ (s.frame.state = .check ∧ s.frame.matched = true ∧ i.rx ≠ none) := by
  unfold receiverCycle at h
  split at h
  · cases h; exact .inl ⟨rfl, rfl⟩
  · rename_i b hrx
    rcases receiveByte_cases b s with ⟨-, hb⟩ | ⟨-, hb⟩ | ⟨-, hb⟩ | ⟨-, hb⟩ | ⟨hs, hb⟩ <;> rw [hb] at h
    · obtain ⟨u, hu, -, -, -, -, -, -, -, hsend, hdata, -⟩ := execHeader_frame b s
      rw [h] at hu; cases hu
      exact .inl ⟨hsend, hdata⟩
    · cases h; exact .inl ⟨rfl, rfl⟩
    · cases h; exact .inl ⟨rfl, rfl⟩
    · exact .inl (.of_flags_eq (payloadByte_frame h).1)
    · cases h
      exact (judgeFrame_response b s).imp_right fun hmatch => ⟨hs, hmatch, by simp [hrx]⟩

end Sys2Proof.Machine

/-! ## The statements -/

namespace Sys2Proof.Claims

open Sys2Proof.Machine Sys2Proof.Safety

/-- Settles O14: both deliveries have the same playback effect, as no rule moves the node ID. -/
theorem redeliveredCommandIsNeutral : Obligations.RedeliveredCommandIsNeutral := by
  intro b s t hevent ht
  obtain ⟨f, hf, hexec⟩ := exists_playbackEffect hevent s.nodeid
  have hfirst : t = f (s.noteHeader (headerEvent b) (headerParam b)) :=
    Host.Outcome.next.inj (ht.symm.trans (hexec s rfl))
  have hnode : t.nodeid = s.nodeid := by
    obtain ⟨-, -, hnode, -⟩ := hf.frame (s.noteHeader (headerEvent b) (headerParam b))
    rw [hfirst, hnode, noteHeader_nodeid]
  have hsecond := hexec t hnode
  rw [hfirst, hf.noteHeader_twice] at hsecond
  rwa [hfirst]

/-- Settles O15: beyond recording the header, a rule has a playback effect and no other. -/
theorem dispatcherWritesOnlyPlaybackControl : Obligations.DispatcherWritesOnlyPlaybackControl := by
  intro b s hevent
  obtain ⟨f, hf, hexec⟩ := exists_playbackEffect hevent s.nodeid
  exact ⟨_, hexec s rfl, hf.frame (s.noteHeader (headerEvent b) (headerParam b))⟩

/-- Settles O45: where neither the sequencer nor the receive path touches the response slot, the cycle keeps the byte, and
the transmitter leaves it pending only as long as it is busy (R226). -/
theorem onlyThreeRulesQueueResponses : Obligations.OnlyThreeRulesQueueResponses := by
  intro s t ha ht hqueued
  obtain ⟨s₁, s₂, h₁, h₂, rfl⟩ := (step_active_eq_next ha).mp ht
  obtain ⟨u, hu, hframe, -⟩ := sequencerCycle_frame (beginCycle s.currentInput s.takeInput)
  rw [h₁] at hu; cases hu
  rcases receiverCycle_response h₂ with hrecv | hcheck
  · rcases sequencerCycle_response h₁ with hseq | ⟨e, hs, hen, hfetch, hpitch, hcoord⟩
    · obtain ⟨hsend, hdata⟩ := (hseq.trans hrecv).after_beginCycle
      rcases hqueued with ⟨hpending, hkept⟩ | hchanged
      · exact absurd (Bool.and_eq_true_iff.mp (hsend.symm.trans hpending)) hkept
      · exact absurd hdata hchanged
    · refine .inr ⟨e, ⟨⟨by simpa using hs, ?_⟩, fetchNote_entry (by simpa using hfetch)⟩, hpitch, ?_⟩
      · simpa [State.playbackEnabled] using hen
      · simpa [State.isCoordinator, Config.coordinatorId] using hcoord
  · left
    simpa [hframe] using hcheck

/-- Settles O8: each of the ten words is the encoding of its instruction, whose meaning is to record its header. -/
theorem ignoredEventsOnlyRecordTheHeader : Obligations.IgnoredEventsOnlyRecordTheHeader := by
  intro n
  refine ⟨?_, ?_, ?_, ?_, ?_, ?_, ?_, ?_, ?_, ?_⟩ <;> exact onlyRecords_of_exec rfl rfl fun _ => rfl

/-- Settles O9: START, STOP and SYNCACK write constants; STARTN and STOPN compare their target first. -/
theorem startStopAndSyncackComplete : Obligations.StartStopAndSyncackComplete :=
  fun n s => ⟨rfl, exec_startn n s, rfl, exec_stopn n s, rfl⟩

end Sys2Proof.Claims
end

section
/-! The playback sequencer (43_playback_sequencer.md), cycle by cycle: what it makes of the entry at the cursor, what a
cycle of an entry in progress does, and the tone timer. -/

/-! ## The kinds of entries -/

namespace Sys2Proof

theorem decodeNote_bits_tone {e : NoteEntry} (h : e.pitch.toNat ≤ 127) :
    decodeNote e.bits = .tone (e.pitch.setWidth 7) e.duration := by
  simp [decodeNote, h]

theorem decodeNote_bits_rest {e : NoteEntry} (h : e.pitch = 255) : decodeNote e.bits = .rest e.duration := by
  simp [decodeNote, h]

theorem decodeNote_bits_endSong {e : NoteEntry} (h : e.pitch = 254) : decodeNote e.bits = .endSong e.duration := by
  simp [decodeNote, h]

theorem decodeNote_bits_sync {e : NoteEntry} (h : e.pitch = 253) : decodeNote e.bits = .sync e.duration := by
  simp [decodeNote, h]

theorem decodeNote_bits_rsvp {e : NoteEntry} (hlo : 128 ≤ e.pitch.toNat) (hhi : e.pitch.toNat ≤ 252) :
    decodeNote e.bits = .rsvp e.pitch e.duration :=
  decodeNote_rsvp e.duration (by simp [Instr.wellFormed, hlo, hhi])

end Sys2Proof

namespace Sys2Proof.Machine

open Sys2Proof.Safety Sys2Proof.Claims

/-! ## The meaning of each note code -/

theorem exec_tone (p : Pitch) (d : Half) (s : State) :
    exec (.tone p d) s = .next (if d = 0 then s.advance else { s with
      timer := { s.timer with reload := romReload p, count := romReload p, presc := 0, en := true }
      seq := { s.seq with wait := durationCycles d, state := .tone } }) := rfl

theorem exec_rest (d : Half) (s : State) :
    exec (.rest d) s = .next (if d = 0 then s.advance else { s with
      seq := { s.seq with wait := durationCycles d, state := .rest } }) := rfl

theorem notify_of_coordinator {s : State} (h : s.nodeid = 0) (v : Byte) : s.notify v = s.queue v :=
  if_pos (decide_eq_true h)

theorem notify_of_not_coordinator {s : State} (h : s.nodeid ≠ 0) (v : Byte) : s.notify v = s :=
  if_neg (by simpa [State.isCoordinator, Config.coordinatorId] using h)

theorem exec_endSong (d : Half) (s : State) :
    exec (.endSong d) s = .next { s with
      seq := { s.seq with pos := 0 }
      flags := if s.nodeid = 0
        then { s.flags with isMusicPlaying := false, sendResponse := true, responseData := 0x20 }
        else { s.flags with isMusicPlaying := false } } := by
  by_cases h : s.nodeid = 0
  · rw [if_pos h, exec, execEndSong, notify_of_coordinator (s := (s.setPos 0).clearPlaying) h]
    rfl
  · rw [if_neg h, exec, execEndSong, notify_of_not_coordinator (s := (s.setPos 0).clearPlaying) h]
    rfl

theorem exec_sync (d : Half) (s : State) :
    exec (.sync d) s = .next { s with
      seq := { s.seq with pos := s.seq.pos + 1 }
      flags := if s.nodeid = 0
        then { s.flags with isWaitingForSync := true, sendResponse := true, responseData := 0x70 }
        else { s.flags with isWaitingForSync := true } } := by
  by_cases h : s.nodeid = 0
  · rw [if_pos h, exec, execSync, notify_of_coordinator h]
    rfl
  · rw [if_neg h, exec, execSync, notify_of_not_coordinator h]
    rfl

/-! ## The sequencer's part, case by case (R180) -/

theorem sequencerEnabled_iff {s : State} : SequencerEnabled s ↔ s.seq.state = .idle ∧ s.playbackEnabled = true := by
  simp [State.playbackEnabled]

theorem sequencerCycle_of_disabled {s : State} (hs : s.seq.state = .idle)
    (h : s.flags.isMusicPlaying = false ∨ s.flags.isWaitingForSync = true) : sequencerCycle s = .next s := by
  have hen : s.playbackEnabled = false := by rcases h with h | h <;> simp [State.playbackEnabled, h]
  simp [sequencerCycle, hs, hen]

theorem sequencerCycle_of_enabled {s : State} (h : SequencerEnabled s) : sequencerCycle s = dispatchEntry s := by
  obtain ⟨hs, hen⟩ := sequencerEnabled_iff.mp h
  simp [sequencerCycle, hs, hen]

theorem sequencerCycle_of_dispatches {s : State} {e : NoteEntry} (h : Dispatches s e) :
    sequencerCycle s = exec (decodeNote e.bits) s := by
  obtain ⟨hen, hlt, hread⟩ := h
  have hfetch : s.fetchNote = .entry e := by simp [State.fetchNote, hlt.not_ge, hread]
  rw [sequencerCycle_of_enabled hen, dispatchEntry, hfetch]

theorem sequencerCycle_of_overrun {s : State} (hen : SequencerEnabled s) (h : Config.maxNotes ≤ s.seq.pos.toNat) :
    sequencerCycle s = .next (s.raiseFault .cursorOverrun) := by
  have hfetch : s.fetchNote = .overrun := if_pos h
  rw [sequencerCycle_of_enabled hen, dispatchEntry, hfetch]

theorem sequencerCycle_of_unwritten {s : State} (hen : SequencerEnabled s) (hlt : s.seq.pos.toNat < Config.maxNotes)
    (h : s.written s.seq.pos.toNat = false) : sequencerCycle s = .next (s.raiseFault .unwrittenEntry) := by
  have hread : s.sbRead s.seq.pos.toNat = none := by simpa [State.written, State.sbRead] using h
  have hfetch : s.fetchNote = .unwritten := by simp [State.fetchNote, hlt.not_ge, hread]
  rw [sequencerCycle_of_enabled hen, dispatchEntry, hfetch]

theorem sequencerCycle_of_reserved {s : State} {e : NoteEntry} (h : Dispatches s e) (hlo : 128 ≤ e.pitch.toNat)
    (hhi : e.pitch.toNat ≤ 252) : sequencerCycle s = .next (s.raiseFault .invalidPitch) := by
  rw [sequencerCycle_of_dispatches h, decodeNote_bits_rsvp hlo hhi]
  rfl

/-- Whatever makes a dispatch fault, the sequencer's part raises the fault and does nothing else (R244). -/
theorem sequencerCycle_of_faultsAtDispatch {s : State} (hen : SequencerEnabled s) (h : FaultsAtDispatch s) :
    ∃ f, sequencerCycle s = .next (s.raiseFault f) := by
  by_cases hlt : s.seq.pos.toNat < Config.maxNotes
  · rcases h with h | h | ⟨e, hread, hlo, hhi⟩
    · exact absurd hlt h.not_gt
    · exact ⟨_, sequencerCycle_of_unwritten hen hlt h⟩
    · exact ⟨_, sequencerCycle_of_reserved ⟨hen, hlt, hread⟩ hlo hhi⟩
  · exact ⟨_, sequencerCycle_of_overrun hen (not_lt.mp hlt)⟩

/-- Before its last cycle an entry in progress only counts down (R183, R185). -/
theorem sequencerCycle_countDown {s : State} (hs : s.seq.state = .tone ∨ s.seq.state = .rest) (h : 1 < s.seq.wait) :
    sequencerCycle s = .next { s with seq := { s.seq with wait := s.seq.wait - 1 } } := by
  rcases hs with hs | hs
  · simp [sequencerCycle, hs, toneCycle, h]
  · simp [sequencerCycle, hs, restCycle, h]

/-- In its last cycle it moves the cursor on, and a tone stops the timer (R183, R185). -/
theorem sequencerCycle_lastCycle {s : State} (hs : s.seq.state = .tone ∨ s.seq.state = .rest) (h : s.seq.wait ≤ 1) :
    sequencerCycle s = .next { s with
      timer := { s.timer with en := if s.seq.state = .tone then false else s.timer.en }
      seq := { s.seq with pos := s.seq.pos + 1, state := .idle } } := by
  rcases hs with hs | hs
  · simp [sequencerCycle, hs, toneCycle, h.not_gt]
  · simp [sequencerCycle, hs, restCycle, h.not_gt]

/-! ## From the sequencer's part to the cycle -/

/-- The timer and the transmitter leave what the sequencer looks at. -/
theorem sequencerEnabled_beginCycle (i : CycleInput) (s : State) :
    SequencerEnabled (beginCycle i s.takeInput) ↔ SequencerEnabled s := by
  simp [SequencerEnabled]

theorem dispatches_beginCycle {s : State} {e : NoteEntry} (h : Dispatches s e) (i : CycleInput) :
    Dispatches (beginCycle i s.takeInput) e := by
  obtain ⟨hen, hlt, hread⟩ := h
  exact ⟨(sequencerEnabled_beginCycle i s).mpr hen, by simpa using hlt, by simpa using hread⟩

/-- Before a cycle's other agents act, the transmitter takes a pending byte unless it is busy (R226). -/
theorem sendResponse_undrained (s : State) :
    (s.flags.sendResponse && !s.drains) = (s.flags.sendResponse && s.flags.uartBusy) := by
  simp [State.drains, Bool.and_or_distrib_left]

/-- With no byte received the cycle ends where the sequencer's part does, but for the node ID and the outputs. -/
theorem step_of_sequencerCycle {s t : State} (h : ReceivesNothing s)
    (ht : sequencerCycle (beginCycle s.currentInput s.takeInput) = .next t) :
    step s = .next (endCycle s.currentInput s.takeInput t) := by
  rw [step_without_byte h, ht, andThen_next]

/-- What no received byte writes of the sequencer and the timer is the same in both states (R58). -/
structure SameSequencer (s t : State) : Prop where
  state : t.seq.state = s.seq.state
  wait : t.seq.wait = s.seq.wait
  timer : t.timer = s.timer
  faults : t.faults = s.faults

/-- Within the frame invariant every active cycle answers a next state, and its byte leaves of the sequencer's part all
but the cursor and the playback flags. -/
theorem exists_step_of_sequencerCycle {s s₁ : State} (ha : Active s) (hinv : FrameInv s.frame)
    (h₁ : sequencerCycle (beginCycle s.currentInput s.takeInput) = .next s₁) :
    ∃ t, step s = .next t ∧ SameSequencer s₁ t ∧
      (s.currentInput.rx = none → t = endCycle s.currentInput s.takeInput s₁) := by
  obtain ⟨u, hu, hframe, -⟩ := sequencerCycle_frame (beginCycle s.currentInput s.takeInput)
  rw [h₁] at hu; cases hu
  obtain ⟨s₂, h₂, hquiet⟩ : ∃ s₂, receiverCycle s.currentInput s₁ = .next s₂ ∧ (s.currentInput.rx = none → s₂ = s₁) := by
    unfold receiverCycle
    cases s.currentInput.rx with
    | none => exact ⟨s₁, rfl, fun _ => rfl⟩
    | some b =>
      obtain ⟨s₂, h₂⟩ := exists_receiveByte b (s := s₁) (by rw [hframe]; simpa using hinv)
      exact ⟨s₂, h₂, fun h => nomatch h⟩
  obtain ⟨hstate, hwait, htimer, -, hfaults, -, -⟩ := receiverCycle_frame h₂
  exact ⟨_, (step_active_eq_next ha).mpr ⟨s₁, s₂, h₁, h₂, rfl⟩, ⟨hstate, hwait, htimer, hfaults⟩,
    fun hrx => by rw [hquiet hrx]⟩

theorem buttonResult_of_playing {s : State} (i : CycleInput) (h : s.flags.isMusicPlaying = true) :
    buttonResult i s = none := if_pos h

/-! ## The tone timer (R191) -/

theorem timerTick_overflow {t : ToneTimer} (hen : t.en = true) (hp : t.presc = Config.timerDiv - 1)
    (hc : t.count = 0xFFFF) : timerTick t = { t with presc := 0, count := t.reload, buzz := !t.buzz } := by
  rw [timerTick, if_pos hen, if_pos hp, timerCount, if_pos hc]

theorem timerTick_count {t : ToneTimer} (hen : t.en = true) (hp : t.presc = Config.timerDiv - 1)
    (hc : t.count ≠ 0xFFFF) : timerTick t = { t with presc := 0, count := t.count + 1 } := by
  rw [timerTick, if_pos hen, if_pos hp, timerCount, if_neg hc]

theorem timerTick_presc {t : ToneTimer} (hen : t.en = true) (hp : t.presc ≠ Config.timerDiv - 1) :
    timerTick t = { t with presc := t.presc + 1 } := by
  rw [timerTick, if_pos hen, if_neg hp]

/-- Outside a dispatch the sequencer writes no more of the timer than its enable bit. -/
theorem sequencerCycle_timer {s t : State} (hen : ¬ SequencerEnabled s) (h : sequencerCycle s = .next t) :
    ∃ v, t.timer = { s.timer with en := v } := by
  rw [sequencerEnabled_iff] at hen
  rcases sequencerCycle_cases s with ⟨-, -, hc⟩ | ⟨hs, he, -⟩ | ⟨hs, he, -⟩ | ⟨e, hs, he, -⟩ | ⟨-, hc⟩ | ⟨-, hc⟩ |
    ⟨-, hc⟩
  · rw [hc] at h; cases h; exact ⟨_, rfl⟩
  · exact absurd ⟨hs, he⟩ hen
  · exact absurd ⟨hs, he⟩ hen
  · exact absurd ⟨hs, he⟩ hen
  · rw [hc] at h; cases h
    unfold toneCycle
    split <;> exact ⟨_, rfl⟩
  · rw [hc] at h; cases h; exact ⟨_, by rw [restCycle_timer]⟩
  · rw [hc] at h; cases h; exact ⟨_, rfl⟩

theorem step_timer {s t : State} (ha : Active s) (ht : step s = .next t) (hen : ¬ SequencerEnabled s) :
    ∃ v, t.timer = { timerTick s.timer with en := v } := by
  obtain ⟨s₁, s₂, h₁, h₂, rfl⟩ := (step_active_eq_next ha).mp ht
  obtain ⟨-, -, htimer, -⟩ := receiverCycle_frame h₂
  obtain ⟨v, hv⟩ := sequencerCycle_timer ((sequencerEnabled_beginCycle _ s).not.mpr hen) h₁
  exact ⟨v, by rw [endCycle_timer, htimer, hv]; simp⟩

/-- A note's meaning leaves the buzzer: a tone loads the timer and starts it, and no more (R182). -/
theorem execNote_buzz {w : BitVec 24} {s t : State} (h : exec (decodeNote w) s = .next t) :
    t.timer.buzz = s.timer.buzz := by
  rcases decodeNote_cases w with ⟨-, hw⟩ | ⟨-, -, hw⟩ | ⟨-, hw⟩ | ⟨-, hw⟩ | ⟨-, hw⟩ <;> rw [hw] at h <;> cases h
  · split <;> rfl
  · rfl
  · simp
  · simp
  · split <;> rfl

/-- The sequencer never writes the buzzer: only the timer toggles it (R191). -/
theorem sequencerCycle_buzz {s t : State} (h : sequencerCycle s = .next t) : t.timer.buzz = s.timer.buzz := by
  by_cases hen : SequencerEnabled s
  · rw [sequencerCycle_of_enabled hen, dispatchEntry] at h
    split at h
    · cases h; rfl
    · cases h; rfl
    · exact execNote_buzz h
  · obtain ⟨v, hv⟩ := sequencerCycle_timer hen h
    rw [hv]

theorem step_buzz {s t : State} (ha : Active s) (ht : step s = .next t) :
    t.timer.buzz = (timerTick s.timer).buzz := by
  obtain ⟨s₁, s₂, h₁, h₂, rfl⟩ := (step_active_eq_next ha).mp ht
  obtain ⟨-, -, htimer, -⟩ := receiverCycle_frame h₂
  rw [endCycle_timer, htimer, sequencerCycle_buzz h₁]
  simp

end Sys2Proof.Machine

/-! ## The statements about one cycle -/

namespace Sys2Proof.Claims

open Sys2Proof.Machine Sys2Proof.Safety

/-- Settles O11: the meanings of TONE and REST, with the reload and the countdown written out. -/
theorem toneAndRestDispatchComplete : Obligations.ToneAndRestDispatchComplete :=
  fun p d s => ⟨exec_tone p d s, exec_rest d s⟩

/-- Settles O12: END and SYNC notify on the coordinator, node 0, and on no other node. -/
theorem endAndSyncComplete : Obligations.EndAndSyncComplete :=
  fun d s => ⟨exec_endSong d s, exec_sync d s⟩

/-- Settles O13: RSVP is the raise of its fault. -/
theorem reservedPitchRaisesInvalidPitch : Obligations.ReservedPitchRaisesInvalidPitch :=
  fun _ _ _ => rfl

/-- Settles O7: the timer and the transmitter leave what a dispatch looks at, so the sequencer's part is that entry. -/
theorem stepRunsDispatchedEntry : Obligations.StepRunsDispatchedEntry := by
  intro s e ha hd
  rcases step_cases s with ⟨hrst, -⟩ | ⟨-, hstep⟩
  · exact absurd (ha.symm.trans hrst) Bool.false_ne_true
  · rw [hstep, activeCycle, sequencerCycle_of_dispatches (dispatches_beginCycle hd _)]
    rfl

/-- Settles O29: neither in `S_FAULT` nor disabled does the sequencer's part change the state, and the transmitter alone
acts on the flags. -/
theorem disabledSequencerDoesNothing : Obligations.DisabledSequencerDoesNothing := by
  intro s h hs
  have hidle : sequencerCycle (beginCycle s.currentInput s.takeInput) =
      .next (beginCycle s.currentInput s.takeInput) := by
    rcases hs with hs | ⟨hs, hdis⟩
    · exact sequencerCycle_of_fault (by simpa using hs)
    · exact sequencerCycle_of_disabled (by simpa using hs) (by simpa using hdis)
  exact ⟨_, step_of_sequencerCycle h hidle, by simp [sendResponse_undrained]⟩

/-- Settles O30: before the last cycle the countdown, in it the cursor. -/
theorem entryInProgressCountsDown : Obligations.EntryInProgressCountsDown := by
  intro s h hs
  by_cases hwait : 1 < s.seq.wait
  · have hcount := step_of_sequencerCycle h (sequencerCycle_countDown (by simpa using hs) (by simpa using hwait))
    exact ⟨_, hcount, by simp [hwait]⟩
  · have hlast := step_of_sequencerCycle h
      (sequencerCycle_lastCycle (by simpa using hs) (by simpa using not_lt.mp hwait))
    exact ⟨_, hlast, by simp [hwait]⟩

/-- Settles O31: the disabled timer does not count, and the entry's meaning is loaded on it. -/
theorem timedEntryIsLatchedAtDispatch : Obligations.TimedEntryIsLatchedAtDispatch := by
  intro s e h hd hen hdur
  have hseq := sequencerCycle_of_dispatches (dispatches_beginCycle hd s.currentInput)
  obtain ⟨⟨-, hplay, hwait⟩, -⟩ := hd
  refine ⟨fun hp => ?_, fun hp => ?_⟩
  · rw [decodeNote_bits_tone hp, exec_tone, if_neg hdur] at hseq
    exact ⟨_, step_of_sequencerCycle h hseq, by simp [durationCycles, timerTick_disabled hen, hplay, hwait]⟩
  · rw [decodeNote_bits_rest hp, exec_rest, if_neg hdur] at hseq
    exact ⟨_, step_of_sequencerCycle h hseq, by simp [durationCycles, timerTick_disabled hen, hplay, hwait]⟩

/-- Settles O32: the coordinator's byte is written after the drain, and no other node touches the response slot. -/
theorem endAndSyncCycle : Obligations.EndAndSyncCycle := by
  intro s e h hd
  have hseq := sequencerCycle_of_dispatches (dispatches_beginCycle hd s.currentInput)
  obtain ⟨⟨-, hplay, hwait⟩, -⟩ := hd
  refine ⟨fun hp => ?_, fun hp => ?_⟩
  · rw [decodeNote_bits_endSong hp, exec_endSong] at hseq
    refine ⟨_, step_of_sequencerCycle h hseq, ?_⟩
    by_cases hnode : s.nodeid = 0#4 <;> simp [hnode, hwait, sendResponse_undrained]
  · rw [decodeNote_bits_sync hp, exec_sync] at hseq
    refine ⟨_, step_of_sequencerCycle h hseq, ?_⟩
    by_cases hnode : s.nodeid = 0#4 <;> simp [hnode, hplay, sendResponse_undrained]

/-- Settles O35: the cycle ticks the timer once, and after that only `tmr_en` can be written. -/
theorem toneTimerCounts : Obligations.ToneTimerCounts := by
  intro s t ha ht hen
  obtain ⟨v, hv⟩ := step_timer ha ht hen
  rw [hv]
  refine ⟨timerTick_reload _, fun hon hp hc => ?_, fun hon hp hc => ?_, fun hon hp => ?_, fun hoff => ?_⟩
  · rw [timerTick_overflow hon hp hc]; exact ⟨rfl, rfl, rfl⟩
  · rw [timerTick_count hon hp hc]; exact ⟨rfl, rfl, rfl⟩
  · rw [timerTick_presc hon hp]; exact ⟨rfl, rfl, rfl⟩
  · rw [timerTick_disabled hoff]; exact ⟨rfl, rfl, rfl⟩

/-- Settles O36: the timer is off and so does not tick, and nothing else writes the buzzer. -/
theorem silentBuzzerHoldsItsLevel : Obligations.SilentBuzzerHoldsItsLevel := by
  intro s t ha ht hsilent
  have hoff : s.timer.en = false := hsilent.elim id fun ⟨hinv, hs⟩ => hinv.timer_off hs
  rw [step_buzz ha ht, timerTick_disabled hoff]

/-- Settles O37: the sequencer's part commutes with putting another Inbound Frame in place. -/
theorem sequencerIgnoresTheFrameReceiver : Obligations.SequencerIgnoresTheFrameReceiver := by
  intro s r
  obtain ⟨t, ht, -, -, hsb, -⟩ := sequencerCycle_frame s
  have hframe := sequencerCycle_withFrame s r
  rw [ht] at hframe
  exact ⟨t, ht, hsb, hframe⟩

/-- Settles O33: each of the three finds makes the sequencer's part the raise of its fault, which a byte leaves and which
writes nothing else. -/
theorem undefinedDispatchRaisesItsFault : Obligations.UndefinedDispatchRaisesItsFault := by
  intro s ha hen hinv
  obtain ⟨s₁, h₁, -⟩ := sequencerCycle_frame (beginCycle s.currentInput s.takeInput)
  obtain ⟨t, ht, hsame, hquiet⟩ := exists_step_of_sequencerCycle ha hinv h₁
  have hen' := (sequencerEnabled_beginCycle s.currentInput s).mpr hen
  have hrecord : ∀ {f : ModelFault}, sequencerCycle (beginCycle s.currentInput s.takeInput) =
      .next ((beginCycle s.currentInput s.takeInput).raiseFault f) →
      t.faults = s.faults.insert f ∧ t.seq.state = .fault := by
    intro f hf
    rw [h₁] at hf; cases hf
    simp [hsame.faults, hsame.state]
  refine ⟨t, ht, fun h => ?_, fun hlt h => ?_, fun e hlt hread hlo hhi => ?_, fun hfault hrx hoff => ?_⟩
  · exact hrecord (sequencerCycle_of_overrun hen' (by simpa using h))
  · exact hrecord (sequencerCycle_of_unwritten hen' (by simpa using hlt) (by simpa [State.written] using h))
  · exact hrecord (sequencerCycle_of_reserved (dispatches_beginCycle ⟨hen, hlt, hread⟩ _) hlo hhi)
  · obtain ⟨f, hf⟩ := sequencerCycle_of_faultsAtDispatch hen' (by simpa [FaultsAtDispatch, State.written] using hfault)
    rw [h₁] at hf; cases hf
    obtain ⟨-, hplay, -⟩ := hen
    rw [hquiet hrx]
    simp [timerTick_disabled hoff, sendResponse_undrained, buttonResult_of_playing (s := s.takeInput) _ hplay]

end Sys2Proof.Claims
end

section
/-! The playback sequencer over many cycles (43_playback_sequencer.md R191 to R196): how long an entry is in progress, the
square wave of a tone, a command in the middle of an entry, and the sync barrier. -/

/-! ## An entry in progress -/

namespace Sys2Proof.Machine

open Sys2Proof.Safety Sys2Proof.Claims

/-- The cursor and the playback flags, which a received command can write, are the same in both states. -/
structure SamePlayback (s t : State) : Prop where
  pos : t.seq.pos = s.seq.pos
  playing : t.flags.isMusicPlaying = s.flags.isMusicPlaying
  waiting : t.flags.isWaitingForSync = s.flags.isWaitingForSync

theorem SamePlayback.trans {s t u : State} (h : SamePlayback s t) (h' : SamePlayback t u) : SamePlayback s u :=
  ⟨h'.pos.trans h.pos, h'.playing.trans h.playing, h'.waiting.trans h.waiting⟩

/-- A tone or rest, by the sequencer's state `q`, is in progress with `n` cycles left. -/
structure InProgress (q : SeqState) (n : Nat) (s : State) : Prop where
  inv : Inv s
  timed : q = .tone ∨ q = .rest
  state : s.seq.state = q
  wait : s.seq.wait = n

theorem InProgress.after_withInputs {q : SeqState} {n : Nat} {s : State} (h : InProgress q n s)
    (ins : List CycleInput) : InProgress q n (withInputs s ins) :=
  ⟨h.inv.after_withInputs ins, h.timed, h.state, h.wait⟩

theorem InProgress.pos {q : SeqState} {n : Nat} {s : State} (h : InProgress q n s) : 1 ≤ n := by
  obtain ⟨-, hwait, -⟩ := h.inv.sequencer.2 (h.state ▸ h.timed)
  exact h.wait ▸ hwait

theorem sequencerCycle_inProgress_succ {q : SeqState} {n : Nat} {s : State} (h : InProgress q (n + 1) s) (hn : 1 ≤ n)
    (i : CycleInput) : sequencerCycle (beginCycle i s.takeInput) =
      .next { beginCycle i s.takeInput with seq := { s.seq with wait := n } } := by
  rw [sequencerCycle_countDown (by simpa [h.state] using h.timed) (by simp [h.wait]; omega)]
  simp [h.wait]

theorem sequencerCycle_inProgress_one {q : SeqState} {s : State} (h : InProgress q 1 s) (i : CycleInput) :
    ∃ tm, sequencerCycle (beginCycle i s.takeInput) = .next { beginCycle i s.takeInput with
      timer := tm
      seq := { s.seq with pos := s.seq.pos + 1, state := .idle } } := by
  rw [sequencerCycle_lastCycle (by simpa [h.state] using h.timed) (by simp [h.wait])]
  exact ⟨_, by simp; rfl⟩

/-- A cycle before the last, whatever byte it receives: the entry stays in progress and the timer ticks. -/
theorem InProgress.step_succ {q : SeqState} {n : Nat} {s : State} (h : InProgress q (n + 1) s) (hn : 1 ≤ n)
    (ha : Active s) : ∃ t, step s = .next t ∧ InProgress q n t ∧ t.timer = timerTick s.timer ∧
      (s.currentInput.rx = none → SamePlayback s t) := by
  obtain ⟨t, ht, hsame, hquiet⟩ :=
    exists_step_of_sequencerCycle ha h.inv.frame (sequencerCycle_inProgress_succ h hn s.currentInput)
  refine ⟨t, ht, ⟨h.inv.after_step ht, h.timed, hsame.state.trans h.state, hsame.wait⟩, by simp [hsame.timer],
    fun hrx => ?_⟩
  rw [hquiet hrx]
  exact ⟨rfl, by simp, by simp⟩

/-- The last cycle, whatever byte it receives: the sequencer stands between entries, and without a command the cursor has
moved on. -/
theorem InProgress.step_one {q : SeqState} {s : State} (h : InProgress q 1 s) (ha : Active s) :
    ∃ t, step s = .next t ∧ Inv t ∧ t.seq.state = .idle ∧
      (s.currentInput.rx = none → SamePlayback s.advance t) := by
  obtain ⟨tm, hseq⟩ := sequencerCycle_inProgress_one h s.currentInput
  obtain ⟨t, ht, hsame, hquiet⟩ := exists_step_of_sequencerCycle ha h.inv.frame hseq
  refine ⟨t, ht, h.inv.after_step ht, hsame.state, fun hrx => ?_⟩
  rw [hquiet hrx]
  exact ⟨rfl, by simp, by simp⟩

/-- Any cycles before the entry's last one. -/
theorem InProgress.exists_runsTo {q : SeqState} {n : Nat} {ins : List CycleInput} {s : State}
    (h : InProgress q (n + ins.length) s) (hn : 1 ≤ n) (hr : NoReset ins) :
    ∃ t, RunsTo s ins t ∧ InProgress q n t ∧ t.timer = timerTick^[ins.length] s.timer ∧
      (NoBytes ins → SamePlayback s t) := by
  induction ins generalizing s with
  | nil => exact ⟨_, runsTo_nil.mpr rfl, h.after_withInputs [], rfl, fun _ => ⟨rfl, rfl, rfl⟩⟩
  | cons i ins ih =>
    obtain ⟨hrst, hr⟩ := List.forall_mem_cons.mp hr
    obtain ⟨u, hu, hprogress, htimer, hplay⟩ :=
      (h.after_withInputs (i :: ins)).step_succ (n := n + ins.length) (by omega) hrst
    obtain ⟨t, ht, hprogress', htimer', hplay'⟩ := ih hprogress hr
    refine ⟨t, runsTo_cons.mpr ⟨u, hu, ht⟩, hprogress', by rw [htimer', htimer]; rfl, fun hb => ?_⟩
    obtain ⟨hrx, hb⟩ := List.forall_mem_cons.mp hb
    obtain ⟨hpos, hplaying, hwaiting⟩ := hplay hrx
    exact SamePlayback.trans ⟨hpos, hplaying, hwaiting⟩ (hplay' hb)

/-- All the cycles that the entry has left. -/
theorem InProgress.exists_runsTo_end {q : SeqState} {ins : List CycleInput} {s : State}
    (h : InProgress q ins.length s) (hr : NoReset ins) :
    ∃ t, RunsTo s ins t ∧ Inv t ∧ t.seq.state = .idle ∧ t.timer.buzz = (timerTick^[ins.length] s.timer).buzz ∧
      (NoBytes ins → SamePlayback s.advance t) := by
  rcases List.eq_nil_or_concat ins with rfl | ⟨init, last, rfl⟩
  · exact absurd h.pos (by simp)
  · simp only [List.concat_eq_append, List.length_append, List.length_singleton] at h hr ⊢
    obtain ⟨hrinit, hrlast⟩ := List.forall_mem_append.mp hr
    have hrst : last.rst = false := hrlast last (List.mem_singleton_self last)
    obtain ⟨u, hu, hprogress, htimer, hplay⟩ := InProgress.exists_runsTo (by rwa [Nat.add_comm]) le_rfl hrinit
    obtain ⟨t, ht, hinv, hidle, hend⟩ := (hprogress.after_withInputs [last]).step_one hrst
    refine ⟨t, runsTo_append.mpr ⟨u, hu, runsTo_singleton.mpr ht⟩, hinv, hidle, ?_, fun hb => ?_⟩
    · rw [step_buzz (s := withInputs u [last]) hrst ht, Function.iterate_succ_apply', ← htimer]
      rfl
    · obtain ⟨hbinit, hblast⟩ := List.forall_mem_append.mp hb
      obtain ⟨hpos, hplaying, hwaiting⟩ := hplay hbinit
      obtain ⟨hpos', hplaying', hwaiting'⟩ := hend (hblast last (List.mem_singleton_self last))
      exact ⟨hpos'.trans (congrArg (· + 1) hpos), hplaying'.trans hplaying, hwaiting'.trans hwaiting⟩

/-! ## The dispatch of an entry -/

/-- The timer that a tone's dispatch leaves: loaded with the reload `R`, the buzzer at the level `b` (R182). -/
def loadedTimer (R : Half) (b : Bool) : ToneTimer := ⟨true, R, R, 0, b⟩

/-- An entry of some duration, by the state `q` in which it is in progress. -/
def TimedEntry (e : NoteEntry) (q : SeqState) : Prop :=
  e.duration ≠ 0 ∧ ((e.pitch.toNat ≤ 127 ∧ q = .tone) ∨ (e.pitch = 255 ∧ q = .rest))

/-- The dispatch of a tone or rest of some duration, whatever byte its cycle receives. -/
theorem step_timedEntry {s : State} {e : NoteEntry} {q : SeqState} (hinv : Inv s) (ha : Active s)
    (hd : Dispatches s e) (he : TimedEntry e q) :
    ∃ t, step s = .next t ∧ InProgress q (durationCycles e.duration) t ∧
      (q = .tone → t.timer = loadedTimer (romReload (e.pitch.setWidth 7)) s.timer.buzz) ∧
      (s.currentInput.rx = none → SamePlayback s t) := by
  have hoff : s.timer.en = false := hinv.timer_off (by simp [hd.1.1])
  have hseq := sequencerCycle_of_dispatches (dispatches_beginCycle hd s.currentInput)
  obtain ⟨hdur, ⟨hp, rfl⟩ | ⟨hp, rfl⟩⟩ := he
  · rw [decodeNote_bits_tone hp, exec_tone, if_neg hdur] at hseq
    obtain ⟨t, ht, hsame, hquiet⟩ := exists_step_of_sequencerCycle ha hinv.frame hseq
    refine ⟨t, ht, ⟨hinv.after_step ht, .inl rfl, hsame.state, hsame.wait⟩, fun _ => ?_, fun hrx => ?_⟩
    · simp [hsame.timer, timerTick_disabled hoff, loadedTimer]
    · rw [hquiet hrx]
      exact ⟨by simp, by simp, by simp⟩
  · rw [decodeNote_bits_rest hp, exec_rest, if_neg hdur] at hseq
    obtain ⟨t, ht, hsame, hquiet⟩ := exists_step_of_sequencerCycle ha hinv.frame hseq
    refine ⟨t, ht, ⟨hinv.after_step ht, .inr rfl, hsame.state, hsame.wait⟩, nofun, fun hrx => ?_⟩
    rw [hquiet hrx]
    exact ⟨by simp, by simp, by simp⟩

/-- The cycles from the dispatch of such an entry on, up to `d * UNIT_CYCLES` of them. -/
theorem exists_runsTo_timedEntry {s : State} {e : NoteEntry} {q : SeqState} {ins : List CycleInput} (hinv : Inv s)
    (hd : Dispatches s e) (he : TimedEntry e q) (hr : NoReset ins) (hpos : 1 ≤ ins.length)
    (hlen : ins.length ≤ durationCycles e.duration) : ∃ t, RunsTo s ins t ∧ Inv t ∧ t.seq.state = q := by
  obtain ⟨i, rest, rfl⟩ := List.exists_cons_of_length_pos hpos
  obtain ⟨hrst, hr⟩ := List.forall_mem_cons.mp hr
  rw [List.length_cons] at hlen
  obtain ⟨u, hu, hprogress, -⟩ := step_timedEntry (hinv.after_withInputs (i :: rest)) hrst hd he
  obtain ⟨t, ht, hprogress', -⟩ := InProgress.exists_runsTo (n := durationCycles e.duration - rest.length) (ins := rest)
    (by rwa [Nat.sub_add_cancel (by omega)]) (by omega) hr
  exact ⟨t, runsTo_cons.mpr ⟨u, hu, ht⟩, hprogress'.inv, hprogress'.state⟩

/-- The dispatch of such an entry and all its cycles. -/
theorem exists_runsTo_timedEntry_end {s : State} {e : NoteEntry} {q : SeqState} {ins : List CycleInput}
    (hinv : Inv s) (hd : Dispatches s e) (he : TimedEntry e q) (hr : NoReset ins)
    (hlen : ins.length = durationCycles e.duration + 1) :
    ∃ t, RunsTo s ins t ∧ Inv t ∧ t.seq.state = .idle ∧ (NoBytes ins → t.seq.pos = s.seq.pos + 1) := by
  obtain ⟨i, rest, rfl⟩ := List.exists_cons_of_length_pos (l := ins) (by omega)
  obtain ⟨hrst, hr⟩ := List.forall_mem_cons.mp hr
  obtain ⟨u, hu, hprogress, -, hplay⟩ := step_timedEntry (hinv.after_withInputs (i :: rest)) hrst hd he
  obtain ⟨t, ht, hinvt, hidle, -, hend⟩ := InProgress.exists_runsTo_end (ins := rest)
    (by rwa [Nat.succ_injective hlen]) hr
  refine ⟨t, runsTo_cons.mpr ⟨u, hu, ht⟩, hinvt, hidle, fun hb => ?_⟩
  obtain ⟨hrx, hb⟩ := List.forall_mem_cons.mp hb
  exact (hend hb).pos.trans (congrArg (· + 1) (hplay hrx).pos)

/-- The entries that take their dispatch cycle only (R182, R184, R186, R187). -/
def OneCycleEntry (e : NoteEntry) : Prop :=
  ((e.pitch.toNat ≤ 127 ∨ e.pitch = 255) ∧ e.duration = 0) ∨ e.pitch = 254 ∨ e.pitch = 253

theorem exec_oneCycleEntry {e : NoteEntry} (he : OneCycleEntry e) (s : State) :
    ∃ t, exec (decodeNote e.bits) s = .next t ∧ t.seq.state = s.seq.state := by
  rcases he with ⟨hp | hp, hdur⟩ | hp | hp
  · rw [decodeNote_bits_tone hp, exec_tone, if_pos hdur]
    exact ⟨_, rfl, rfl⟩
  · rw [decodeNote_bits_rest hp, exec_rest, if_pos hdur]
    exact ⟨_, rfl, rfl⟩
  · rw [decodeNote_bits_endSong hp, exec_endSong]
    exact ⟨_, rfl, rfl⟩
  · rw [decodeNote_bits_sync hp, exec_sync]
    exact ⟨_, rfl, rfl⟩

theorem step_oneCycleEntry {s : State} {e : NoteEntry} (hinv : Inv s) (ha : Active s) (hd : Dispatches s e)
    (he : OneCycleEntry e) : ∃ t, step s = .next t ∧ Inv t ∧ t.seq.state = .idle := by
  have hseq := sequencerCycle_of_dispatches (dispatches_beginCycle hd s.currentInput)
  obtain ⟨s₁, hexec, hstate⟩ := exec_oneCycleEntry he (beginCycle s.currentInput s.takeInput)
  obtain ⟨t, ht, hsame, -⟩ := exists_step_of_sequencerCycle ha hinv.frame (hseq.trans hexec)
  obtain ⟨⟨hidle, -⟩, -⟩ := hd
  exact ⟨t, ht, hinv.after_step ht, hsame.state.trans (by simpa using hstate.trans (by simpa using hidle))⟩

/-! ## The square wave of a tone (R192) -/

/-- Counting on from the last residue of `d` begins a new period. -/
theorem succ_divMod_of_last {n d : Nat} (hd : 0 < d) (h : n % d = d - 1) : (n + 1) / d = n / d + 1 ∧ (n + 1) % d = 0 := by
  have := Nat.mod_add_div n d
  exact (Nat.div_mod_unique hd).mpr ⟨by rw [Nat.mul_succ]; omega, hd⟩

/-- Counting on from any other residue stays in the period. -/
theorem succ_divMod_of_not_last {n d : Nat} (hd : 0 < d) (h : n % d ≠ d - 1) :
    (n + 1) / d = n / d ∧ (n + 1) % d = n % d + 1 := by
  have := Nat.mod_add_div n d
  have := Nat.mod_lt n hd
  exact (Nat.div_mod_unique hd).mpr ⟨by omega, by omega⟩

/-- `m` cycles after its load with `R` and the buzzer at `b` the timer has made `m / TIMER_DIV` counts, each from `R` up to
0xFFFF a period of `65536 - R` counts, and toggled the buzzer once a period. -/
structure TonePhase (R : Half) (b : Bool) (m : Nat) (t : ToneTimer) : Prop where
  en : t.en = true
  reload : t.reload = R
  presc : t.presc = m % Config.timerDiv
  count : t.count.toNat = R.toNat + m / Config.timerDiv % (65536 - R.toNat)
  buzz : t.buzz = (b ^^ decide (m / Config.timerDiv / (65536 - R.toNat) % 2 = 1))

theorem tonePhase_loadedTimer (R : Half) (b : Bool) : TonePhase R b 0 (loadedTimer R b) :=
  ⟨rfl, rfl, by simp [loadedTimer], by simp [loadedTimer], by simp [loadedTimer]⟩

/-- One more toggle: the parity of the periods flips. -/
theorem decide_succ_odd (k : Nat) : decide ((k + 1) % 2 = 1) = !decide (k % 2 = 1) := by
  rcases Nat.mod_two_eq_zero_or_one k with h | h <;> simp [Nat.add_mod, h]

/-- A tick within the prescaler, a count within the period, or the overflow. -/
theorem TonePhase.timerTick {R : Half} {b : Bool} {m : Nat} {t : ToneTimer} (h : TonePhase R b m t) :
    TonePhase R b (m + 1) (timerTick t) := by
  obtain ⟨hen, hreload, hpresc, hcount, hbuzz⟩ := h
  have hdiv : 0 < Config.timerDiv := Nat.succ_pos _
  have hperiod : 0 < 65536 - R.toNat := Nat.sub_pos_of_lt R.isLt
  by_cases hp : t.presc = Config.timerDiv - 1
  · obtain ⟨hq, hr⟩ := succ_divMod_of_last hdiv (hpresc.symm.trans hp)
    by_cases hc : t.count = 0xFFFF
    · have hlast : m / Config.timerDiv % (65536 - R.toNat) = 65536 - R.toNat - 1 := by
        have : t.count.toNat = 65535 := by rw [hc]; rfl
        omega
      obtain ⟨hq', hr'⟩ := succ_divMod_of_last hperiod hlast
      rw [timerTick_overflow hen hp hc]
      exact ⟨hen, hreload, hr.symm, by rw [hq, hr', Nat.add_zero, ← hreload],
        by rw [hq, hq', decide_succ_odd, Bool.xor_not, ← hbuzz]⟩
    · have hnotLast : m / Config.timerDiv % (65536 - R.toNat) ≠ 65536 - R.toNat - 1 := by
        have : t.count.toNat ≠ 65535 := fun h => hc (BitVec.eq_of_toNat_eq h)
        omega
      obtain ⟨hq', hr'⟩ := succ_divMod_of_not_last hperiod hnotLast
      rw [timerTick_count hen hp hc]
      refine ⟨hen, hreload, hr.symm, ?_, by rw [hq, hq', ← hbuzz]⟩
      rw [hq, hr', ← Nat.add_assoc, ← hcount]
      bv_omega
  · obtain ⟨hq, hr⟩ := succ_divMod_of_not_last hdiv (hpresc ▸ hp)
    rw [timerTick_presc hen hp]
    exact ⟨hen, hreload, by rw [hr, hpresc], by rw [hq, hcount], by rw [hq, hbuzz]⟩

theorem tonePhase_iterate (R : Half) (b : Bool) (m : Nat) : TonePhase R b m (timerTick^[m] (loadedTimer R b)) := by
  induction m with
  | zero => exact tonePhase_loadedTimer R b
  | succ m ih => rw [Function.iterate_succ_apply']; exact ih.timerTick

/-- The buzzer of a running entry is what the timer's ticks made of it, in the last cycle too. -/
theorem InProgress.exists_runsTo_buzz {q : SeqState} {n : Nat} {ins : List CycleInput} {s : State}
    (h : InProgress q n s) (hr : NoReset ins) (hlen : ins.length ≤ n) :
    ∃ t, RunsTo s ins t ∧ t.timer.buzz = (timerTick^[ins.length] s.timer).buzz := by
  rcases hlen.lt_or_eq with hlt | rfl
  · obtain ⟨t, ht, -, htimer, -⟩ := InProgress.exists_runsTo (n := n - ins.length)
      (by rwa [Nat.sub_add_cancel hlen]) (by omega) hr
    exact ⟨t, ht, by rw [htimer]⟩
  · obtain ⟨t, ht, -, -, hbuzz, -⟩ := h.exists_runsTo_end hr
    exact ⟨t, ht, hbuzz⟩

/-! ## Commands -/

/-- A received header meets what the sequencer's part of its cycle leaves. -/
theorem step_of_execHeader {s s₁ t : State} {b : Byte} (h : Receives s b) (hb : FrameBoundary s)
    (h₁ : sequencerCycle (beginCycle s.currentInput s.takeInput) = .next s₁)
    (ht : exec (decodeHeader b) s₁ = .next t) : step s = .next (endCycle s.currentInput s.takeInput t) := by
  rw [stepRunsReceivedHeader s b h hb, h₁, andThen_next, decode, ht, andThen_next]

theorem exec_obeyedCommand {s u : State} {b : Byte} (h : ObeyedCommand s b) (hnode : u.nodeid = s.nodeid) :
    exec (decodeHeader b) u = .next (if headerEvent b = 3 ∨ headerEvent b = 5
      then (u.noteHeader (headerEvent b) (headerParam b)).startPlayback
      else (u.noteHeader (headerEvent b) (headerParam b)).stopPlayback) := by
  rcases h with h | h | ⟨h | h, htarget⟩
  · rw [decodeHeader_start h, h]; rfl
  · rw [decodeHeader_stop h, h]; rfl
  · rw [decodeHeader_startn h, exec_startn, if_pos (htarget.trans hnode.symm), h]; rfl
  · rw [decodeHeader_stopn h, exec_stopn, if_pos (htarget.trans hnode.symm), h]; rfl

/-- The cursor and the playback flags as an obeyed start or stop header `b` leaves them (R153 to R156). -/
structure Commanded (b : Byte) (s : State) : Prop where
  pos : s.seq.pos = 0
  playing : s.flags.isMusicPlaying = decide (headerEvent b = 3 ∨ headerEvent b = 5)
  waiting : s.flags.isWaitingForSync = false

/-- An obeyed start or stop writes the cursor and the flags over what the sequencer's part of the cycle does, and leaves
the entry in progress (R195, R246). -/
theorem step_obeyedCommand {s s₁ : State} {b : Byte} (h : Receives s b) (hb : FrameBoundary s)
    (hc : ObeyedCommand s b) (h₁ : sequencerCycle (beginCycle s.currentInput s.takeInput) = .next s₁) :
    ∃ t, step s = .next t ∧ t.seq.state = s₁.seq.state ∧ t.seq.wait = s₁.seq.wait ∧ Commanded b t := by
  obtain ⟨u, hu, -, hnode, -⟩ := sequencerCycle_frame (beginCycle s.currentInput s.takeInput)
  rw [h₁] at hu; cases hu
  refine ⟨_, step_of_execHeader h hb h₁ (exec_obeyedCommand hc (by simpa using hnode)), ?_⟩
  by_cases hstart : headerEvent b = 3 ∨ headerEvent b = 5
  · rw [if_pos hstart]
    exact ⟨rfl, rfl, rfl, (decide_eq_true hstart).symm, rfl⟩
  · rw [if_neg hstart]
    exact ⟨rfl, rfl, rfl, (decide_eq_false hstart).symm, rfl⟩

/-- A command before the entry's last cycle: the entry stays in progress. -/
theorem InProgress.step_command_succ {q : SeqState} {n : Nat} {s : State} {b : Byte} (hs : InProgress q (n + 1) s)
    (hn : 1 ≤ n) (h : Receives s b) (hb : FrameBoundary s) (hc : ObeyedCommand s b) :
    ∃ t, step s = .next t ∧ InProgress q n t ∧ Commanded b t := by
  obtain ⟨t, ht, hstate, hwait, hcmd⟩ :=
    step_obeyedCommand h hb hc (sequencerCycle_inProgress_succ hs hn s.currentInput)
  exact ⟨t, ht, ⟨hs.inv.after_step ht, hs.timed, hstate.trans hs.state, hwait⟩, hcmd⟩

/-- A command in the entry's last cycle: the entry ends, and the cursor stays where the command puts it. -/
theorem InProgress.step_command_one {q : SeqState} {s : State} {b : Byte} (hs : InProgress q 1 s)
    (h : Receives s b) (hb : FrameBoundary s) (hc : ObeyedCommand s b) :
    ∃ t, step s = .next t ∧ t.seq.state = .idle ∧ Commanded b t := by
  obtain ⟨tm, hseq⟩ := sequencerCycle_inProgress_one hs s.currentInput
  obtain ⟨t, ht, hstate, -, hcmd⟩ := step_obeyedCommand h hb hc hseq
  exact ⟨t, ht, hstate, hcmd⟩

/-! ## The sync barrier (R187, R196) -/

/-- The node is playing and held at a barrier, with the sequencer's registers as in `q`. -/
structure HeldAtBarrier (q : Sequencer) (s : State) : Prop where
  seq : s.seq = q
  idle : q.state = .idle
  playing : s.flags.isMusicPlaying = true
  waiting : s.flags.isWaitingForSync = true

/-- The dispatch of a SYNC holds the node (R187). -/
theorem step_sync_held {s : State} {e : NoteEntry} (h : ReceivesNothing s) (hd : Dispatches s e)
    (hp : e.pitch = 253) :
    ∃ t, step s = .next t ∧ HeldAtBarrier { s.seq with pos := s.seq.pos + 1 } t := by
  obtain ⟨-, hsync⟩ := endAndSyncCycle s e h hd
  obtain ⟨t, ht, hseq, hplaying, hwaiting, -⟩ := hsync hp
  obtain ⟨⟨hidle, -⟩, -⟩ := hd
  exact ⟨t, ht, hseq, hidle, hplaying, hwaiting⟩

/-- With no byte received a held node stays held. -/
theorem HeldAtBarrier.exists_runsTo {q : Sequencer} {ins : List CycleInput} {s : State} (h : HeldAtBarrier q s)
    (hr : NoReset ins) (hb : NoBytes ins) : ∃ t, RunsTo s ins t ∧ HeldAtBarrier q t := by
  induction ins generalizing s with
  | nil => exact ⟨_, runsTo_nil.mpr rfl, h.seq, h.idle, h.playing, h.waiting⟩
  | cons i ins ih =>
    obtain ⟨hrst, hr⟩ := List.forall_mem_cons.mp hr
    obtain ⟨hrx, hb⟩ := List.forall_mem_cons.mp hb
    have hstate : s.seq.state = .idle := by rw [h.seq, h.idle]
    obtain ⟨u, hu, hseq, -, hplaying, hwaiting, -⟩ := disabledSequencerDoesNothing (withInputs s (i :: ins))
      ⟨hrst, hrx⟩ (.inr ⟨hstate, .inr h.waiting⟩)
    obtain ⟨t, ht, hheld⟩ := ih (s := u)
      ⟨hseq.trans h.seq, h.idle, hplaying.trans h.playing, hwaiting.trans h.waiting⟩ hr hb
    exact ⟨t, runsTo_cons.mpr ⟨u, hu, ht⟩, hheld⟩

/-- A sync acknowledgement lets a held node go on at its cursor (R158). -/
theorem HeldAtBarrier.step_syncack {q : Sequencer} {s : State} {b : Byte} (hheld : HeldAtBarrier q s)
    (h : Receives s b) (hb : FrameBoundary s) (hevent : headerEvent b = 8) :
    ∃ t, step s = .next t ∧ SequencerEnabled t ∧ t.seq = q := by
  obtain ⟨hseq, hidle, hplaying, hwaiting⟩ := hheld
  have hstay : sequencerCycle (beginCycle s.currentInput s.takeInput) =
      .next (beginCycle s.currentInput s.takeInput) :=
    sequencerCycle_of_disabled (by simp [hseq, hidle]) (by simp [hwaiting])
  refine ⟨_, step_of_execHeader h hb hstay (by rw [decodeHeader_syncack hevent]; rfl), ?_⟩
  simp [SequencerEnabled, hseq, hidle, hplaying]

end Sys2Proof.Machine

/-! ## The statements about runs -/

namespace Sys2Proof.Claims

open Sys2Proof.Machine Sys2Proof.Safety

/-- Settles O38: the dispatch loads the countdown, which no byte writes, and the invariant ties the timer to the tone. -/
theorem entriesTakeTheirDuration : Obligations.EntriesTakeTheirDuration := by
  intro s e ins hinv hd hr
  refine ⟨fun hdur hpos hlen => ⟨fun hp => ?_, fun hp => ?_⟩, fun hdur hlen hp => ?_, fun hlen he => ?_⟩
  · obtain ⟨t, ht, hinvt, hstate⟩ := exists_runsTo_timedEntry hinv hd ⟨hdur, .inl ⟨hp, rfl⟩⟩ hr hpos hlen
    exact ⟨t, ht, hstate, hinvt.timer.1.mpr hstate⟩
  · obtain ⟨t, ht, hinvt, hstate⟩ := exists_runsTo_timedEntry hinv hd ⟨hdur, .inr ⟨hp, rfl⟩⟩ hr hpos hlen
    exact ⟨t, ht, hstate, hinvt.timer_off (by simp [hstate])⟩
  · obtain ⟨q, he⟩ : ∃ q, TimedEntry e q := by
      rcases hp with hp | hp
      · exact ⟨_, hdur, .inl ⟨hp, rfl⟩⟩
      · exact ⟨_, hdur, .inr ⟨hp, rfl⟩⟩
    obtain ⟨t, ht, hinvt, hidle, hpos⟩ := exists_runsTo_timedEntry_end hinv hd he hr hlen
    exact ⟨t, ht, hidle, hinvt.timer_off (by simp [hidle]), hpos⟩
  · obtain ⟨i, rfl⟩ := List.length_eq_one_iff.mp hlen
    obtain ⟨t, ht, hinvt, hidle⟩ := step_oneCycleEntry (hinv.after_withInputs [i]) (hr i (List.mem_singleton_self i))
      hd he
    exact ⟨t, runsTo_singleton.mpr ht, hidle, hinvt.timer_off (by simp [hidle])⟩

/-- Settles O39: the dispatch loads the timer, and from then on the buzzer is the phase of the timer's ticks. -/
theorem toneTogglesTheBuzzer : Obligations.ToneTogglesTheBuzzer := by
  intro s e ins m hinv hd hr hp hdur hlen hm
  obtain ⟨i, rest, rfl⟩ := List.exists_cons_of_length_pos (l := ins) (by omega)
  obtain ⟨hrst, hr⟩ := List.forall_mem_cons.mp hr
  obtain rfl : rest.length = m := Nat.succ_injective hlen
  obtain ⟨u, hu, hprogress, htimer, -⟩ := step_timedEntry (hinv.after_withInputs (i :: rest)) hrst hd
    ⟨hdur, .inl ⟨hp, rfl⟩⟩
  obtain ⟨t, ht, hbuzz⟩ := hprogress.exists_runsTo_buzz hr hm
  refine ⟨t, runsTo_cons.mpr ⟨u, hu, ht⟩, ?_⟩
  rw [hbuzz, htimer rfl, (tonePhase_iterate _ _ _).buzz, Nat.div_div_eq_div_mul]
  rfl

/-- Settles O40: the command writes the cursor in its cycle, and the entry runs on from 0 with no other byte; in the
entry's last cycle the command's 0 is what stays. -/
theorem commandDoesNotCutTheEntry : Obligations.CommandDoesNotCutTheEntry := by
  intro s b i rest hinv hb hs hc hr hrx hn hlen
  obtain ⟨hrst, hr⟩ := List.forall_mem_cons.mp hr
  have hprogress (more : List CycleInput) : InProgress s.seq.state (rest.length + 1) (withInputs s (i :: more)) :=
    ⟨hinv.after_withInputs _, hs, rfl, hlen.symm⟩
  have hrecv (more : List CycleInput) : Receives (withInputs s (i :: more)) b := ⟨hrst, hrx⟩
  rw [← hlen, List.length_cons]
  rcases Nat.eq_zero_or_pos rest.length with hzero | hpos
  · obtain rfl := List.length_eq_zero_iff.mp hzero
    obtain ⟨t, ht, hidle, hcmd⟩ := (hprogress []).step_command_one (hrecv []) hb hc
    exact ⟨fun k hk hlt => absurd hlt hk.not_gt, t, runsTo_singleton.mpr ht, hidle, hcmd.pos, hcmd.playing,
      hcmd.waiting⟩
  · have hfirst (more : List CycleInput) := (hprogress more).step_command_succ hpos (hrecv more) hb hc
    refine ⟨fun k hk hlt => ?_, ?_⟩
    · obtain ⟨k, rfl⟩ := Nat.exists_eq_add_of_le' hk
      have hlen' : (rest.take k).length = k := List.length_take_of_le (by omega)
      obtain ⟨u, hu, hprogress, hcmd⟩ := hfirst (rest.take k)
      obtain ⟨t, ht, hprogress, -, hplay⟩ := InProgress.exists_runsTo (n := rest.length - k) (ins := rest.take k)
        (by rwa [hlen', Nat.sub_add_cancel (by omega)]) (by omega) fun j hj => hr j (List.mem_of_mem_take hj)
      exact ⟨t, runsTo_cons.mpr ⟨u, hu, ht⟩, hprogress.state,
        (hplay fun j hj => hn j (List.mem_of_mem_take hj)).pos.trans hcmd.pos⟩
    · obtain ⟨u, hu, hprogress, hcmd⟩ := hfirst rest
      obtain ⟨t, ht, -, hidle, -, hend⟩ := hprogress.exists_runsTo_end hr
      obtain ⟨hpos', hplaying, hwaiting⟩ := hend hn
      refine ⟨t, runsTo_cons.mpr ⟨u, hu, ht⟩, hidle, ?_, hplaying.trans hcmd.playing, hwaiting.trans hcmd.waiting⟩
      rw [if_neg (by omega), hpos', advance_seq, hcmd.pos]
      rfl

/-- Settles O41: held since the SYNC's dispatch, the node meets the acknowledgement at a frame boundary, as no byte came
before it. -/
theorem syncAckResumesAfterTheBarrier : Obligations.SyncAckResumesAfterTheBarrier := by
  intro s e b held ack hinv hb hd hp hne hr hn hrx hevent
  obtain ⟨i, rest, rfl⟩ := List.exists_cons_of_ne_nil hne
  obtain ⟨hrheld, hrack⟩ := List.forall_mem_append.mp hr
  obtain ⟨hrst, hrrest⟩ := List.forall_mem_cons.mp hrheld
  obtain ⟨hnone, hnrest⟩ := List.forall_mem_cons.mp hn
  obtain ⟨u, hu, hheld⟩ := step_sync_held (s := withInputs s (i :: rest)) ⟨hrst, hnone⟩ hd hp
  obtain ⟨v, hv, hheld⟩ := hheld.exists_runsTo hrrest hnrest
  have hrun : RunsTo s (i :: rest) v := runsTo_cons.mpr ⟨u, hu, hv⟩
  obtain ⟨hframe, -, -⟩ := sameReceiver_of_runsTo hrun hrheld (List.filterMap_eq_nil_iff.mpr hn)
  have hheld' : HeldAtBarrier { s.seq with pos := s.seq.pos + 1 } (withInputs v [ack]) :=
    ⟨hheld.seq, hheld.idle, hheld.playing, hheld.waiting⟩
  obtain ⟨t, ht, hen, hseq⟩ := hheld'.step_syncack ⟨hrack ack (List.mem_singleton_self ack), hrx⟩
    ((congrArg InboundFrame.state hframe).trans hb) hevent
  exact ⟨⟨v, hrun, hheld.waiting, hheld.playing, hheld.seq⟩, t, runsTo_append.mpr ⟨v, hrun, runsTo_singleton.mpr ht⟩,
    hen, by rw [hseq]⟩

end Sys2Proof.Claims
end

section
/-! The node ID and the transmitter (44_node_id_and_transmit.md): what the buttons make of the node ID and the store, and
what the transmitter makes of the response slot, whatever the cycle's byte and dispatch do. -/

namespace Sys2Proof.Machine

open Sys2Proof.Safety

/-! ## The buttons (R220 to R224) -/

theorem buttonResult_inc {i : CycleInput} {s : State} (hinc : i.btnInc = true) (hdec : i.btnDec = false)
    (hp : s.flags.isMusicPlaying = false) : buttonResult i s = some (s.nodeid + 1) := by
  simp [buttonResult, hinc, hdec, hp]

theorem buttonResult_dec {i : CycleInput} {s : State} (hdec : i.btnDec = true) (hinc : i.btnInc = false)
    (hp : s.flags.isMusicPlaying = false) : buttonResult i s = some (s.nodeid + 15) := by
  simp [buttonResult, hinc, hdec, hp]

theorem buttonResult_of_not_accepted {i : CycleInput} {s : State}
    (h : s.flags.isMusicPlaying = true ∨ i.btnInc = i.btnDec) : buttonResult i s = none := by
  rcases h with hp | hsame
  · exact buttonResult_of_playing i hp
  · unfold buttonResult
    rw [hsame]
    cases i.btnDec <;> exact ite_self none

/-- A pulse is accepted exactly from one button alone while not playing, and gives another node ID (R224). -/
theorem buttonResult_cases (i : CycleInput) (s : State) :
    (¬ (s.flags.isMusicPlaying = false ∧ i.btnInc ≠ i.btnDec) ∧ buttonResult i s = none) ∨
    ((s.flags.isMusicPlaying = false ∧ i.btnInc ≠ i.btnDec) ∧ ∃ v, v ≠ s.nodeid ∧ buttonResult i s = some v) := by
  by_cases h : s.flags.isMusicPlaying = false ∧ i.btnInc ≠ i.btnDec
  · refine .inr ⟨h, ?_⟩
    obtain ⟨hp, hne⟩ := h
    cases hinc : i.btnInc with
    | true => exact ⟨_, by simp, buttonResult_inc hinc (by simpa [hinc] using hne) hp⟩
    | false => exact ⟨_, by simp, buttonResult_dec (by simpa [hinc] using hne) hinc hp⟩
  · exact .inl ⟨h, buttonResult_of_not_accepted (by simpa [imp_iff_not_or] using h)⟩

/-! ## From the parts to the cycle -/

/-- An active cycle's two parts, with what the sequencer's part leaves for the receive path and the edge (R197). -/
theorem step_active_parts {s t : State} (ha : Active s) (ht : step s = .next t) :
    ∃ s₁ s₂, sequencerCycle (beginCycle s.currentInput s.takeInput) = .next s₁ ∧
      receiverCycle s.currentInput s₁ = .next s₂ ∧ t = endCycle s.currentInput s.takeInput s₂ ∧
      s₁.frame = s.frame ∧ s₁.nodeid = s.nodeid ∧
      s₁.flags.uartBusy = (s.drains || (s.flags.uartBusy && !s.currentInput.txDone)) := by
  obtain ⟨s₁, s₂, h₁, h₂, rfl⟩ := (step_active_eq_next ha).mp ht
  obtain ⟨u, hu, hframe, hnode, -, -, -, hbusy⟩ := sequencerCycle_frame (beginCycle s.currentInput s.takeInput)
  rw [h₁] at hu; cases hu
  exact ⟨s₁, s₂, h₁, h₂, rfl, by simpa using hframe, by simpa using hnode, by simpa using hbusy⟩

/-- No other agent writes the node ID, and the outputs are those of the state before the edge. -/
theorem step_nodeid_out {s t : State} (ha : Active s) (ht : step s = .next t) :
    t.nodeid = (buttonResult s.currentInput s).getD s.nodeid ∧ t.out = cycleOutput s.currentInput s := by
  obtain ⟨s₁, s₂, -, h₂, rfl, -, hnode, -⟩ := step_active_parts ha ht
  obtain ⟨-, -, -, hnode', -⟩ := receiverCycle_frame h₂
  rw [endCycle_nodeid, hnode', hnode]
  exact ⟨rfl, rfl⟩

/-- An accepted pulse gives the node ID and its write to the store (R221, R222). -/
theorem step_of_buttonResult_some {s t : State} {v : Nibble} (ha : Active s) (ht : step s = .next t)
    (hv : buttonResult s.currentInput s = some v) :
    t.nodeid = v ∧ t.out.nv = some (Config.nvNodeIdAddr, t.nodeid.setWidth 8) := by
  obtain ⟨hnode, hout⟩ := step_nodeid_out ha ht
  rw [hv] at hnode
  exact ⟨hnode, by simp [hout, hnode, cycleOutput, nvWrite, hv]⟩

theorem step_of_buttonResult_none {s t : State} (ha : Active s) (ht : step s = .next t)
    (hv : buttonResult s.currentInput s = none) : t.nodeid = s.nodeid ∧ t.out.nv = none := by
  obtain ⟨hnode, hout⟩ := step_nodeid_out ha ht
  rw [hv] at hnode
  exact ⟨hnode, by simp [hout, cycleOutput, nvWrite, hv]⟩

/-! ## The transmitter (R226, R227) -/

theorem drains_iff {s : State} : s.drains = true ↔ s.flags.sendResponse = true ∧ s.flags.uartBusy = false := by
  simp [State.drains]

/-- Only the transmitter writes `uartBusy` (R58). -/
theorem step_uartBusy {s t : State} (ha : Active s) (ht : step s = .next t) :
    t.flags.uartBusy = (s.drains || (s.flags.uartBusy && !s.currentInput.txDone)) := by
  obtain ⟨s₁, s₂, -, h₂, rfl, -, -, hbusy⟩ := step_active_parts ha ht
  obtain ⟨-, -, -, -, -, -, hbusy'⟩ := receiverCycle_frame h₂
  rw [endCycle_flags, hbusy', hbusy]

/-- A sequencer that dispatches nothing queues nothing. -/
theorem sameResponse_of_not_enabled {s t : State} (hen : ¬ SequencerEnabled s) (h : sequencerCycle s = .next t) :
    SameResponse s t :=
  (sequencerCycle_response h).resolve_right fun ⟨_, hs, he, _⟩ => hen (sequencerEnabled_iff.mpr ⟨hs, he⟩)

/-- A byte that is no check byte queues nothing. -/
theorem sameResponse_of_no_check {i : CycleInput} {s t : State} (hno : i.rx = none ∨ s.frame.state ≠ .check)
    (h : receiverCycle i s = .next t) : SameResponse s t :=
  (receiverCycle_response h).resolve_right fun ⟨hs, _, hrx⟩ => hno.elim hrx (· hs)

/-- Where nothing can queue a byte, the cycle leaves the slot to the transmitter (R226). -/
theorem step_response {s t : State} (ha : Active s) (ht : step s = .next t) (hen : ¬ SequencerEnabled s)
    (hno : s.currentInput.rx = none ∨ s.frame.state ≠ .check) :
    t.flags.sendResponse = (s.flags.sendResponse && s.flags.uartBusy) ∧
      t.flags.responseData = s.flags.responseData := by
  obtain ⟨s₁, s₂, h₁, h₂, rfl, hframe, -⟩ := step_active_parts ha ht
  have hseq := sameResponse_of_not_enabled ((sequencerEnabled_beginCycle _ s).not.mpr hen) h₁
  have hrecv := sameResponse_of_no_check (by rwa [hframe]) h₂
  exact (hseq.trans hrecv).after_beginCycle

end Sys2Proof.Machine

/-! ## The statements -/

namespace Sys2Proof.Claims

open Sys2Proof.Machine Sys2Proof.Safety

/-- Settles O42: each clause says which pulse the cycle accepts, and nothing else reaches the node ID or the store. -/
theorem buttonsMoveTheNodeId : Obligations.ButtonsMoveTheNodeId := by
  intro s t ha ht
  refine ⟨fun hinc hdec hp => ?_, fun hdec hinc hp => ?_, fun h => ?_⟩
  · obtain ⟨hnode, hnv⟩ := step_of_buttonResult_some ha ht (buttonResult_inc hinc hdec hp)
    exact ⟨by rw [hnode, BitVec.toNat_add]; rfl, hnv⟩
  · obtain ⟨hnode, hnv⟩ := step_of_buttonResult_some ha ht (buttonResult_dec hdec hinc hp)
    exact ⟨by rw [hnode, BitVec.toNat_add]; rfl, hnv⟩
  · exact step_of_buttonResult_none ha ht (buttonResult_of_not_accepted h)

/-- Settles O43: an accepted pulse always gives another node ID, a cycle without one keeps it, and reset drives nothing. -/
theorem nodeIdAndStoreChangeTogether : Obligations.NodeIdAndStoreChangeTogether := by
  intro s t ht
  refine ⟨fun ha => ?_, fun hreset => ?_⟩
  · rcases buttonResult_cases s.currentInput s with ⟨hno, hv⟩ | ⟨hyes, v, hne, hv⟩
    · obtain ⟨hnode, hnv⟩ := step_of_buttonResult_none ha ht hv
      exact ⟨iff_of_false (not_not_intro hnode) hno, fun h => absurd hnode h, fun _ => hnv⟩
    · obtain ⟨rfl, hnv⟩ := step_of_buttonResult_some ha ht hv
      exact ⟨iff_of_true hne hyes, fun _ => hnv, fun h => absurd h hne⟩
  · rcases step_cases s with ⟨-, hs⟩ | ⟨ha, -⟩
    · rw [hs] at ht; cases ht; rfl
    · exact absurd ha hreset

/-- Settles O44: the drain is the transmitter's alone, and the slot is too where neither the sequencer nor a check byte can
queue. -/
theorem transmitterDrainsTheSlot : Obligations.TransmitterDrainsTheSlot := by
  intro s t ha ht
  refine ⟨?_, ?_, step_response ha ht⟩
  · obtain ⟨-, hout⟩ := step_nodeid_out ha ht
    simp only [hout, cycleOutput, txDrive, drains_iff]
  · simp only [step_uartBusy ha ht, ← drains_iff]
    cases s.drains with
    | true => rfl
    | false => cases s.currentInput.txDone <;> simp

end Sys2Proof.Claims
end

section
/-! The merge of one cycle (60_exceptions.md R246): a header's writes beside those of the other agents in its cycle, and
that no cycle of a reachable state stops the block (R240, R243). -/

/-! ## A header beside the same cycle without it -/

namespace Sys2Proof.Machine

open Sys2Proof.Safety Sys2Proof.Claims

/-- What a header received at a frame boundary does to its cycle is its meaning in any state with the frame and the node
ID from before the edge, as the other agents leave both (`hend`: it writes neither the node ID nor the outputs). -/
theorem byteEffect_of_execHeader {s : State} {b : Byte} {f : State → State} (h : Receives s b) (hb : FrameBoundary s)
    (hend : ∀ i p u, endCycle i p (f u) = f (endCycle i p u))
    (hexec : ∀ u : State, u.frame = s.frame → u.nodeid = s.nodeid → exec (decodeHeader b) u = .next (f u)) :
    ByteEffect s f := by
  refine byteEffect_of_receiveByte h hend fun u hu hnode => ?_
  rw [receiveByte_idle b (by rw [hu.frame, hb])]
  exact hexec u hu.frame hnode

/-- An obeyed start's or stop's writes win over those of its cycle (R153 to R156, R246). -/
theorem byteEffect_obeyedCommand {s : State} {b : Byte} {playing : Bool} (h : Receives s b) (hb : FrameBoundary s)
    (hc : ObeyedCommand s b) (hplaying : decide (headerEvent b = 3 ∨ headerEvent b = 5) = playing) :
    ByteEffect s (fun u => { u with
      frame := recordedFrame s.frame b
      seq := { u.seq with pos := 0 }
      flags := { u.flags with isMusicPlaying := playing, isWaitingForSync := false } }) := by
  refine byteEffect_of_execHeader h hb (fun _ _ _ => rfl) fun u hframe hnode => ?_
  rw [exec_obeyedCommand hc hnode, ← hframe]
  cases playing with
  | true => rw [if_pos (of_decide_eq_true hplaying)]; rfl
  | false => rw [if_neg (of_decide_eq_false hplaying)]; rfl

/-- A sync acknowledgement's clear wins over the barrier's set in its cycle (R158, R246). -/
theorem byteEffect_syncack {s : State} {b : Byte} (h : Receives s b) (hb : FrameBoundary s) (hack : headerEvent b = 8) :
    ByteEffect s (fun u => { u with
      frame := recordedFrame s.frame b
      flags := { u.flags with isWaitingForSync := false } }) := by
  refine byteEffect_of_execHeader h hb (fun _ _ _ => rfl) fun u hframe _ => ?_
  rw [decodeHeader_syncack hack, ← hframe, recordedFrame, hack]
  rfl

/-- A unicast start or stop for another node only records its header (R155, R156). -/
theorem exec_foreignUnicast {b : Byte} {u : State} (hevent : headerEvent b ∈ [0x5, 0x6])
    (hother : headerParam b ≠ u.nodeid) :
    exec (decodeHeader b) u = .next (u.noteHeader (headerEvent b) (headerParam b)) := by
  simp only [List.mem_cons, List.not_mem_nil, or_false] at hevent
  rcases hevent with hevent | hevent
  · rw [decodeHeader_startn hevent, exec_startn, if_neg hother, hevent]
  · rw [decodeHeader_stopn hevent, exec_stopn, if_neg hother, hevent]

/-- Within the frame invariant no active cycle stops: the sequencer's part always answers a next state, and so does the
receive path on the frame that it leaves. -/
theorem exists_step_of_active {s : State} (ha : Active s) (hinv : FrameInv s.frame) : ∃ t, step s = .next t := by
  obtain ⟨s₁, h₁, -⟩ := sequencerCycle_frame (beginCycle s.currentInput s.takeInput)
  obtain ⟨t, ht, -⟩ := exists_step_of_sequencerCycle ha hinv h₁
  exact ⟨t, ht⟩

end Sys2Proof.Machine

/-! ## The statements -/

namespace Sys2Proof.Claims

open Sys2Proof.Machine Sys2Proof.Safety

/-- Settles O16, command by command: the receive path runs after the sequencer's part, so a command's writes are the last
of its cycle. -/
theorem commandOverridesTheSequencer : Obligations.CommandOverridesTheSequencer := by
  intro s b h hb
  refine ⟨fun hstart => ?_, fun hstop => ?_, byteEffect_syncack h hb⟩
  · rcases hstart with he | ⟨he, hmine⟩
    · exact byteEffect_obeyedCommand h hb (.inl he) (by simp [he])
    · exact byteEffect_obeyedCommand h hb (.inr (.inr ⟨.inl he, hmine⟩)) (by simp [he])
  · rcases hstop with he | ⟨he, hmine⟩
    · exact byteEffect_obeyedCommand h hb (.inr (.inl he)) (by simp [he])
    · exact byteEffect_obeyedCommand h hb (.inr (.inr ⟨.inr he, hmine⟩)) (by simp [he])

/-- Settles O17: a header of an event that is no command records itself in every state, a unicast one in every state with
another node ID, and no other agent moves the node ID before the receive path reads it. -/
theorem foreignHeaderIsIgnored : Obligations.ForeignHeaderIsIgnored := by
  rintro s b h hb (hignored | ⟨hunicast, hother⟩)
  · exact byteEffect_of_recordedHeader h hb (exec_ignoredHeader hignored)
  · refine byteEffect_of_execHeader h hb (fun _ _ _ => rfl) fun u hframe hnode => ?_
    rw [exec_foreignUnicast hunicast (by rwa [hnode]), ← hframe]
    rfl

/-- Settles O52: a reset cycle always answers the reset state, and the frame clause of the invariant keeps the one write
that could stop an active cycle, a payload byte's, inside the Song Buffer (R82). -/
theorem theBlockNeverStops : Obligations.TheBlockNeverStops := by
  intro s hinv
  rcases step_cases s with ⟨-, hreset⟩ | ⟨ha, -⟩
  · exact ⟨_, hreset⟩
  · exact exists_step_of_active ha hinv.frame

end Sys2Proof.Claims
end

section
/-! Reset and quiescence (70_reset_and_hazards.md R270 to R272, R282): what every register is after a reset, and that a
quiescent state rests while no input comes. -/

/-! ## The reset state (R271, R272) -/

namespace Sys2Proof.Machine

open Sys2Proof.Safety

/-- A corrupt byte, above 15, gives node 0; any other is the node ID (R272). -/
theorem bootNodeId_toNat (stored : Byte) :
    (bootNodeId stored).toNat = if stored.toNat ≤ 15 then stored.toNat else 0 := by
  unfold bootNodeId
  split
  · simp only [BitVec.extractLsb'_toNat, Nat.shiftRight_zero]
    omega
  · rfl

/-- The reset table (R271): the same whatever the reset samples and whatever is to come, but for the node ID (R272). -/
theorem resetWith_registers (stored : Byte) (ins : List CycleInput) :
    (State.resetWith stored ins).frame = ⟨.idle, 0, 0, 0, 0, 0, false, false, 0, 0⟩ ∧
    (State.resetWith stored ins).flags = ⟨false, false, false, false, 0x00, false⟩ ∧
    (State.resetWith stored ins).nodeid.toNat = (if stored.toNat ≤ 15 then stored.toNat else 0) ∧
    (State.resetWith stored ins).seq = ⟨0, .idle, 0⟩ ∧
    (State.resetWith stored ins).timer = ⟨false, 0, 0, 0, false⟩ ∧
    (∀ i, (State.resetWith stored ins).written i = false) ∧
    Faultless (State.resetWith stored ins) ∧ (State.resetWith stored ins).out = ⟨none, none⟩ :=
  ⟨rfl, rfl, bootNodeId_toNat stored, rfl, rfl, fun _ => rfl, rfl, rfl⟩

theorem quiescent_resetWith (stored : Byte) (ins : List CycleInput) : Quiescent (State.resetWith stored ins) :=
  ⟨rfl, rfl, rfl, rfl, rfl, rfl⟩

/-! ## A cycle in which nothing happens -/

theorem timerCycle_of_disabled {s : State} (h : s.timer.en = false) : timerCycle s = s := by
  rw [timerCycle, timerTick_disabled h]

theorem drains_of_nothing_pending {s : State} (h : s.flags.sendResponse = false) : s.drains = false := by
  simp [State.drains, h]

theorem transmitCycle_of_nothing_pending {i : CycleInput} {s : State} (h : s.flags.sendResponse = false)
    (htx : i.txDone = false) : transmitCycle i s = s := by
  simp [transmitCycle, drains_of_nothing_pending h, htx]

/-- With nothing pending and no pulse accepted, the edge writes no node ID and the cycle drives nothing (R66, R226). -/
theorem endCycle_of_nothing_driven {i : CycleInput} {s : State} (hpending : s.flags.sendResponse = false)
    (hbtn : buttonResult i s = none) : endCycle i s s = { s with out := ⟨none, none⟩ } := by
  simp [endCycle, cycleOutput, txDrive, nvWrite, drains_of_nothing_pending hpending, hbtn]

/-- In a quiescent cycle with no input every agent stands still: the timer is off, nothing is pending for the transmitter,
the sequencer is disabled, and no byte and no pulse comes (R282). -/
theorem step_of_quiescent {s : State} (hinv : Inv s) (hq : Quiescent s) (h : ReceivesNothing s)
    (htx : s.currentInput.txDone = false) (hbtn : s.currentInput.btnInc = s.currentInput.btnDec) :
    step s = .next { s.takeInput with out := ⟨none, none⟩ } := by
  obtain ⟨-, hidle, hplay, hpending, -, -⟩ := hq
  have hoff : s.takeInput.timer.en = false := hinv.timer_off (by simp [hidle])
  have hpending : s.takeInput.flags.sendResponse = false := hpending
  have hbegin : beginCycle s.currentInput s.takeInput = s.takeInput := by
    rw [beginCycle, timerCycle_of_disabled hoff, transmitCycle_of_nothing_pending hpending htx]
  have hseq : sequencerCycle s.takeInput = .next s.takeInput := sequencerCycle_of_disabled hidle (.inl hplay)
  rw [step_of_sequencerCycle h (by rw [hbegin, hseq]),
    endCycle_of_nothing_driven hpending (buttonResult_of_not_accepted (.inr hbtn))]

end Sys2Proof.Machine

/-! ## The statements -/

namespace Sys2Proof.Claims

open Sys2Proof.Machine Sys2Proof.Safety

/-- Settles O55: the cycle changes no more than the model's own schedule and outputs. -/
theorem quiescenceLasts : Obligations.QuiescenceLasts := by
  intro s hinv hq h htx hinc hdec
  exact ⟨_, step_of_quiescent hinv hq h htx (hinc.trans hdec.symm), ⟨rfl, rfl, rfl, rfl, rfl, rfl, rfl⟩, hq, rfl⟩

/-- Settles O48: a reset cycle answers the reset state with the byte it samples. -/
theorem resetCycleResetsEveryRegister : Obligations.ResetCycleResetsEveryRegister := by
  intro s hreset
  rcases step_cases s with ⟨-, hstep⟩ | ⟨hactive, -⟩
  · exact ⟨_, hstep, resetWith_registers _ _⟩
  · exact absurd (hactive.symm.trans hreset) Bool.false_ne_true

/-- Settles O49: the reset table, with nothing playing and nothing pending. -/
theorem resetStateIsQuiescent : Obligations.ResetStateIsQuiescent := by
  obtain ⟨hframe, hflags, hnode, hseq, htimer, hwritten, hfaultless, -⟩ := resetWith_registers Config.nvBootValue []
  exact ⟨hframe, hflags, hnode, hseq, htimer, hwritten, hfaultless, rfl, quiescent_resetWith _ _⟩

/-- Settles O50: the base case of the invariant's induction over runs. -/
theorem invariantAfterReset : Obligations.InvariantAfterReset :=
  inv_resetWith

end Sys2Proof.Claims
end
